-- ==== Sys2Proof/Word.lean ====
section
/-! DEFINITION. The value types of the machine (spec/00_scope.md R5, R6): bytes, channels, selectors, ports,
routes, windows and enable vectors. Bit 0 is the least significant bit of every value. -/

namespace Sys2Proof

/-- One MIDI byte, `b[7:0]` (R6). -/
abbrev Byte := BitVec 8

/-- A zero-based MIDI channel number, as the low nibble of a channel status byte holds it (R6). -/
abbrev Chan := BitVec 4

/-- The logical selector value, after any inversion of the pins (R6). -/
abbrev Sel := BitVec 2

/-- A physical port index, zero-based (R6). -/
abbrev Port := Fin 4

/-- The port-enable vector in positive logic: bit `i` is 1 exactly when port `i` is enabled (R6). -/
abbrev En := BitVec 4

/-- The channel window: entry `i` is the channel that belongs to port `i` (R6). -/
abbrev Window := Vector Chan 4

/-- The seventeen-valued type of the running-status latch and of the route of a byte: one channel, or
the sentinel BROADCAST (spec/00_scope.md R6, spec/10_state.md R11). -/
inductive Route where
  | ch (c : Chan)
  | bcast
  deriving DecidableEq, Repr

/-- The class of a byte, which is its opcode (R6, R9). -/
inductive Class where
  | data | chan | syscom | sysrt
  deriving DecidableEq, Repr

end Sys2Proof
end

