-- ==== Sys2Proof/Config.lean ====
section
/-! DEFINITION. What an implementation fixes (spec/00_scope.md R4): the parameters the spec leaves OPEN,
with their defaults, and the one free value of the model. -/

namespace Sys2Proof.Config

/-- The OPEN parameters of spec/00_scope.md R4. A machine's State holds one such record, which no step
changes, so a statement about every state is a statement about every value of them. -/
structure Params where
  /-- `CFG_INVERT`: the raw configuration pins are inverted before use (R62). -/
  cfgInvert : Bool
  /-- `RESET_EN`: the enables from reset to the first byte (R150). -/
  resetEn : En
  /-- `RESET_WSEL`: the latched selector at reset; no output depends on it (R14). -/
  resetWsel : Sel
  /-- `SETTLE_CYCLES`: clock edges between the decision and the echo, at least 1 (R123). -/
  settleCycles : Nat
  deriving DecidableEq, Repr

/-- The default of every OPEN parameter (R4; the spec's own decisions D6, D9, D13, D10).
DESIGN CHOICE, unsafe: entries 3, 4, 5 and 11. -/
def Params.default : Params :=
  { cfgInvert := true, resetEn := 0b1111#4, resetWsel := 0#2, settleCycles := 1 }

/-- FREE VALUE: what `TXB` holds after the k-th reset edge of a run; the spec leaves it unspecified
(spec/10_state.md R22, spec/70_reset_and_hazards.md R150). No body, so no proof can see it. Entry 7, safe. -/
opaque freeTxb : Nat → Byte

end Sys2Proof.Config
end

