-- ==== Sys2Proof/Syntax.lean ====
section
/-! DEFINITION. The instruction set: one constructor per row of spec/opcode_table.json
(spec/30_encoding.md R51, R55 to R58, R66). An instruction is one byte; the bits that do not select the
row are its operand. Only the channel `n` of a CHAN byte influences the machine's state; the payload `d`
and the sub-code `k` are carried because the byte is echoed unmodified (R31, R54). -/

namespace Sys2Proof

inductive Instr where
  /-- `DATA`, `0ddddddd` (R58). -/
  | data (d : BitVec 7)
  /-- `CHAN.8`, `1000nnnn` (R55). -/
  | chan8 (n : Chan)
  /-- `CHAN.9`, `1001nnnn` (R55). -/
  | chan9 (n : Chan)
  /-- `CHAN.A`, `1010nnnn` (R55). -/
  | chanA (n : Chan)
  /-- `CHAN.B`, `1011nnnn` (R55). -/
  | chanB (n : Chan)
  /-- `CHAN.C`, `1100nnnn` (R55). -/
  | chanC (n : Chan)
  /-- `CHAN.D`, `1101nnnn` (R55). -/
  | chanD (n : Chan)
  /-- `CHAN.E`, `1110nnnn` (R55). -/
  | chanE (n : Chan)
  /-- `SYSCOM`, `11110kkk` (R56). -/
  | syscom (k : BitVec 3)
  /-- `SYSRT`, `11111kkk` (R57). -/
  | sysrt (k : BitVec 3)
  deriving DecidableEq, Repr

/-- The class an instruction belongs to (R55: the seven CHAN rows are one class). -/
def Instr.cls : Instr → Class
  | .data _ => .data
  | .chan8 _ => .chan
  | .chan9 _ => .chan
  | .chanA _ => .chan
  | .chanB _ => .chan
  | .chanC _ => .chan
  | .chanD _ => .chan
  | .chanE _ => .chan
  | .syscom _ => .syscom
  | .sysrt _ => .sysrt

/-- One row of the machine-readable opcode table: a byte belongs to the row exactly when
`b & mask = match` (R66). -/
structure Row where
  mnemonic : String
  mask : Byte
  value : Byte
  deriving DecidableEq, Repr

/-- The row of the table an instruction is written in (R66). -/
def Instr.row : Instr → Row
  | .data _ => ⟨"DATA", 0x80#8, 0x00#8⟩
  | .chan8 _ => ⟨"CHAN.8", 0xF0#8, 0x80#8⟩
  | .chan9 _ => ⟨"CHAN.9", 0xF0#8, 0x90#8⟩
  | .chanA _ => ⟨"CHAN.A", 0xF0#8, 0xA0#8⟩
  | .chanB _ => ⟨"CHAN.B", 0xF0#8, 0xB0#8⟩
  | .chanC _ => ⟨"CHAN.C", 0xF0#8, 0xC0#8⟩
  | .chanD _ => ⟨"CHAN.D", 0xF0#8, 0xD0#8⟩
  | .chanE _ => ⟨"CHAN.E", 0xF0#8, 0xE0#8⟩
  | .syscom _ => ⟨"SYSCOM", 0xF8#8, 0xF0#8⟩
  | .sysrt _ => ⟨"SYSRT", 0xF8#8, 0xF8#8⟩

/-- The ten rows of spec/opcode_table.json, in its order (R66). -/
def opcodeTable : List Row :=
  [ (Instr.data 0).row, (Instr.chan8 0).row, (Instr.chan9 0).row, (Instr.chanA 0).row,
    (Instr.chanB 0).row, (Instr.chanC 0).row, (Instr.chanD 0).row, (Instr.chanE 0).row,
    (Instr.syscom 0).row, (Instr.sysrt 0).row ]

/-- The row's test on a byte (R66). -/
def Row.selects (r : Row) (b : Byte) : Bool := b &&& r.mask == r.value

end Sys2Proof
end

