-- ==== Sys2Proof/WellFormed.lean ====
section
/-! DEFINITION. Well-formedness checks. Every instruction is well formed: its operands have the widths of
their fields, and no byte is illegal or reserved (spec/30_encoding.md R59). The checks that can refuse are
those on the implementation's parameters (spec/00_scope.md R4), on a window (spec/40_config_window.md R76)
and on the gate-level bit pattern of a route (spec/10_state.md R13). -/

namespace Sys2Proof

/-- No instruction is ill formed: "no invalid input exists" (R59). The type of each operand is exactly
its field, so there is nothing left to check. -/
def Instr.wf : Instr → Bool
  | .data _ => true
  | .chan8 _ => true
  | .chan9 _ => true
  | .chanA _ => true
  | .chanB _ => true
  | .chanC _ => true
  | .chanD _ => true
  | .chanE _ => true
  | .syscom _ => true
  | .sysrt _ => true

/-- `SETTLE_CYCLES` is at least 1 (R4, R160); every value of the other parameters is allowed. -/
def Config.Params.wf (p : Config.Params) : Bool := decide (1 ≤ p.settleCycles)

/-- The source's invariant of a window: all four entries consecutive within 0 to 15 (R76), hence distinct. -/
def windowWf (w : Window) : Bool :=
  decide (w[1].toNat = w[0].toNat + 1 ∧ w[2].toNat = w[1].toNat + 1 ∧ w[3].toNat = w[2].toNat + 1)

/-- The seventeen canonical bit patterns of a route: `B = 1` implies `CH = 0` (R11, R13). -/
def routeBitsCanonical (v : BitVec 5) : Bool := !v.getLsbD 4 || v == 0b10000#5

end Sys2Proof
end

