-- ==== Sys2Proof/Machine/State.lean ====
section
/-! DEFINITION. The state of the machine: the three state elements of spec/10_state.md R10, the stream
index (R16), the pin-level wrapper's registers (R22), the configuration pins, the OPEN parameters
(spec/00_scope.md R4), and the input and output streams (spec/20_memory.md R30 to R32). -/

namespace Sys2Proof.Machine

/-- The levels of the core's input pins at one rising clock edge (spec/43_byte_step.md R120). -/
structure Edge where
  /-- Synchronous reset, active high. -/
  rst : Bool
  /-- High when `rxByte` holds a newly received byte. -/
  rxValid : Bool
  /-- The received byte; sampled only when `rxValid` is high. -/
  rxByte : Byte
  /-- The raw configuration inputs, bit 1 the first input (R62). -/
  cfgPin : BitVec 2
  deriving DecidableEq, Repr

/-- What an observer sees of one byte: the enable vector, then the byte (spec/20_memory.md R44). -/
structure Emit where
  en : En
  byte : Byte
  deriving DecidableEq, Repr

structure State where
  /-- The OPEN parameters of this machine; no step changes them (spec/00_scope.md R4). -/
  cfg : Config.Params
  /-- The level of the configuration pins, as last sampled (spec/30_encoding.md R62). -/
  cfgPin : BitVec 2
  /-- `RS`, the running-status channel latch (spec/10_state.md R10 to R13). -/
  rs : Route
  /-- `WSEL`, the latched selector (spec/10_state.md R14). -/
  wsel : Sel
  /-- `OE`, the output-enable latch in positive logic (spec/10_state.md R17). -/
  oe : En
  /-- `n`, the index of the next byte of the stream (spec/10_state.md R16). -/
  n : Nat
  /-- `TXB`, the byte waiting to be handed to the transmitter (spec/10_state.md R22). -/
  txb : Byte
  /-- `TXP`, the down-counter of `SETTLE_CYCLES`; zero when nothing waits (spec/10_state.md R22). -/
  txp : Nat
  /-- The output `tx_valid`, as it stands after the last edge (spec/43_byte_step.md R123). DEDUCED: entry 8. -/
  txValid : Bool
  /-- The input pins of the clock edges to come: `STREAM` and `SEL` (spec/20_memory.md R30, entry 1). -/
  inputs : List Edge
  /-- The output stream with its enables, oldest first (spec/20_memory.md R31, R44). -/
  out : List Emit
  /-- The echo as it left the pins, one entry per `tx_valid` pulse, oldest first (spec/43_byte_step.md R127). -/
  tx : List Emit
  /-- The model's own counter, to which the free value `Config.freeTxb` is applied (entry 7). -/
  freeIdx : Nat
  deriving DecidableEq, Repr

/-- Why the machine stops with a fault: never. The core raises no exception and has no fallible
operation (spec/60_exceptions.md R130), so this type has no value. Safe. -/
inductive Fault where
  deriving DecidableEq, Repr

/-- Why an instruction has no next state. No byte and no selector is refused (spec/60_exceptions.md R130). -/
inductive Refusal where
  /-- Raised by exec's arm of an instruction that has no meaning yet; no arm raises it. Safe: the
  machine stops. -/
  | notModelled (mnemonic : String)
  deriving DecidableEq, Repr

/-- The machine with parameters `p` right after reset (spec/10_state.md R21, spec/70_reset_and_hazards.md
R150). `TXB` has no reset value in the spec: DESIGN CHOICE 0x00, unsafe, entry 6. The configuration pins
rest at the level they are pulled to: DESIGN CHOICE 0b11, unsafe, entry 9. -/
def State.resetWith (p : Config.Params) : State :=
  { cfg := p, cfgPin := 0b11#2, rs := .bcast, wsel := p.resetWsel, oe := p.resetEn, n := 0,
    txb := 0#8, txp := 0, txValid := false, inputs := [], out := [], tx := [], freeIdx := 0 }

/-- The machine right after reset, with every OPEN parameter at its default (R150). -/
def State.reset : State := State.resetWith Config.Params.default

end Sys2Proof.Machine
end

