-- ==== Sys2Proof/Machine/Flags.lean ====
section
/-! DEFINITION. The one flag of the machine, `B = RS[4]`, and its companion field `CH = RS[3:0]`, as views
of the latch (spec/10_state.md R11, R18). There is no other flag. -/

namespace Sys2Proof.Machine

/-- `B`: set exactly when the route is BROADCAST (R18). -/
def flagB : Route → Bool
  | .bcast => true
  | .ch _ => false

/-- `CH`: the channel, zero under BROADCAST (R11, R13). -/
def fieldCh : Route → Chan
  | .bcast => 0#4
  | .ch c => c

/-- The 5-bit pattern of a route, with B in bit 4 and CH in bits 3 to 0 (R11, D1). -/
def routeBits (r : Route) : BitVec 5 := BitVec.ofBool (flagB r) ++ fieldCh r

/-- The route a 5-bit pattern is read as: only bit 4 is tested, so 0x11 to 0x1F read as BROADCAST
(R11, spec/42_port_mapper.md R109). -/
def routeOfBits (v : BitVec 5) : Route := if v.getLsbD 4 then .bcast else .ch (v.extractLsb' 0 4)

/-- The flag `B` of the machine (R18). -/
def State.b (s : State) : Bool := flagB s.rs

end Sys2Proof.Machine
end

