-- ==== Sys2Proof/Decode.lean ====
section
/-! DEFINITION. Decoding a byte and encoding an instruction (spec/30_encoding.md R50 to R58, R65, R66).
Every one of the 256 bytes decodes; the only thing refused is the absence of a byte. -/

namespace Sys2Proof

/-- The class of a byte, by the bit tests of R52. -/
def classOf (b : Byte) : Class :=
  if b.extractLsb' 3 5 = 0b11111#5 then .sysrt
  else if b.extractLsb' 3 5 = 0b11110#5 then .syscom
  else if b.getLsbD 7 then .chan
  else .data

/-- The one operand of the instruction set: the channel `b & 0x0F` of a CHAN byte, `b[3:0]` (R54). -/
def channelOf (b : Byte) : Chan := b.extractLsb' 0 4

/-- The sub-code `b[2:0]` of a system byte (R51). -/
def subCodeOf (b : Byte) : BitVec 3 := b.extractLsb' 0 3

/-- The payload `b[6:0]` of a data byte (R51). -/
def payloadOf (b : Byte) : BitVec 7 := b.extractLsb' 0 7

/-- The instruction a byte is, by the numeric ranges of the rows (R52, R55 to R58). Total: R53, R59. -/
def decodeByte (b : Byte) : Instr :=
  if 0xF8#8 ≤ b then .sysrt (subCodeOf b)
  else if 0xF0#8 ≤ b then .syscom (subCodeOf b)
  else if 0xE0#8 ≤ b then .chanE (channelOf b)
  else if 0xD0#8 ≤ b then .chanD (channelOf b)
  else if 0xC0#8 ≤ b then .chanC (channelOf b)
  else if 0xB0#8 ≤ b then .chanB (channelOf b)
  else if 0xA0#8 ≤ b then .chanA (channelOf b)
  else if 0x90#8 ≤ b then .chan9 (channelOf b)
  else if 0x80#8 ≤ b then .chan8 (channelOf b)
  else .data (payloadOf b)

/-- Why bytes do not decode. -/
inductive DecodeError where
  /-- There is no byte to decode. Safe: no byte value is ever refused (R59). -/
  | noByte
  deriving DecidableEq, Repr

/-- Decode the first instruction of a byte list and give back the rest: one byte is one instruction (R50). -/
def decode : List Byte → Except DecodeError (Instr × List Byte)
  | [] => .error .noByte
  | b :: rest => .ok (decodeByte b, rest)

/-- The byte of an instruction, from the rows' bit patterns (R51, R55 to R58, R65). -/
def encode : Instr → Byte
  | .data d => 0b0#1 ++ d
  | .chan8 n => 0b1000#4 ++ n
  | .chan9 n => 0b1001#4 ++ n
  | .chanA n => 0b1010#4 ++ n
  | .chanB n => 0b1011#4 ++ n
  | .chanC n => 0b1100#4 ++ n
  | .chanD n => 0b1101#4 ++ n
  | .chanE n => 0b1110#4 ++ n
  | .syscom k => 0b11110#5 ++ k
  | .sysrt k => 0b11111#5 ++ k

/-- The first `k` bytes of the number `w`, least significant first: how spec/opcode_table.json numbers
an instruction's bits. -/
def bytesOfWord : Nat → Nat → List Byte
  | 0, _ => []
  | k + 1, w => BitVec.ofNat 8 w :: bytesOfWord k (w / 256)

/-- The instruction the decoder reads from the `nbits` bits of `w`; an instruction is exactly one byte
(R50), so anything left over after it is refused. -/
def decodeTableWord (nbits w : Nat) : Option Instr :=
  match decode (bytesOfWord (nbits / 8) w) with
  | .ok (i, []) => some i
  | .ok (_, _ :: _) => none
  | .error _ => none

end Sys2Proof
end

