-- ==== Sys2Proof/Machine/Operands.lean ====
section
/-! DEFINITION. The operand forms that are not in the byte: the selector pins, the window lookup table,
the enable pins and the other output pins (spec/30_encoding.md R62, R63; spec/40_config_window.md R70;
spec/43_byte_step.md R120, R123, R125). -/

namespace Sys2Proof.Machine

/-- The logical selector of the raw configuration pins under `CFG_INVERT` (R62). -/
def selOfPins (invert : Bool) (pin : BitVec 2) : Sel := if invert then ~~~pin else pin

/-- The selector present at this step: the pins as sampled, decoded (R62, R73). -/
def State.sel (s : State) : Sel := selOfPins s.cfg.cfgInvert s.cfgPin

/-- `LUT(s, i) = 4*s + i`, the window entry of port `i` under selector `s` (R33, R70). -/
def lut (s : Sel) (i : Port) : Chan := BitVec.ofNat 4 (4 * s.toNat + i.val)

/-- `window(s)`, the four channels under selector `s` (R70). -/
def windowOf (s : Sel) : Window := #v[lut s 0, lut s 1, lut s 2, lut s 3]

/-- The stored channel window, a view of `WSEL` (spec/10_state.md R15). -/
def State.win (s : State) : Window := windowOf s.wsel

/-- The enable vector whose bit `i` is `ei` (spec/00_scope.md R6: port 3 leftmost). -/
def enOf (e0 e1 e2 e3 : Bool) : En :=
  BitVec.ofBool e3 ++ BitVec.ofBool e2 ++ BitVec.ofBool e1 ++ BitVec.ofBool e0

/-- The active-low levels of four enables (R63). -/
def pinsOfEn (en : En) : BitVec 4 := ~~~en

/-- The output pins `oe_n` (R63, R113, R120). -/
def State.oeN (s : State) : BitVec 4 := pinsOfEn s.oe

/-- The output pins `tx_byte` (R123). -/
def State.txByte (s : State) : Byte := s.txb

/-- The optional status indicator, outside the core contract; nothing reads it (R125, R144; entry 12). -/
def State.busy (s : State) : Bool := decide (0 < s.txp) || s.txValid

end Sys2Proof.Machine
end

