-- ==== Sys2Proof/Machine/Ops.lean ====
section
/-! DEFINITION. The named operations of the machine: RESOLVE, CLASSIFY, DECIDE, Drive, TxWrite, RxRead, and
the BYTE step, IDLE step and reset that they make up (spec/40_config_window.md R71, spec/41_midi_state_machine.md
R84, spec/42_port_mapper.md R100, spec/43_byte_step.md R110 to R124). The core raises no exception, so there is
no operation that takes or returns from one (spec/60_exceptions.md R130, R135, R136). -/

namespace Sys2Proof.Machine

/-- RESOLVE: the latched selector takes the selector present at this step (R71, in the unconditional form
of R77). The window it returns is `State.win` of the result. -/
def State.resolve (s : State) : State := { s with wsel := s.sel }

/-- `RS <- r` (spec/10_state.md R12). -/
def State.setRs (s : State) (r : Route) : State := { s with rs := r }

/-- CLASSIFY, the parser's function on byte numbers: the route of the byte and the new latch (R84). -/
def classify (b : Byte) (rs : Route) : Route × Route :=
  if 0xF8#8 ≤ b then (.bcast, rs)
  else if 0xF0#8 ≤ b then (.bcast, .bcast)
  else if 0x80#8 ≤ b then (.ch (b.extractLsb' 0 4), .ch (b.extractLsb' 0 4))
  else (rs, rs)

/-- DECIDE: all four enables from scratch; BROADCAST enables all, a channel exactly the entries equal to
it, a miss none (R100, R102, R106). -/
def decidePorts (r : Route) (w : Window) : En :=
  match r with
  | .bcast => 0b1111#4
  | .ch c => enOf (w[0] == c) (w[1] == c) (w[2] == c) (w[3] == c)

/-- `Drive(en)`: the latch takes all four bits in one update (R113). -/
def State.drive (s : State) (en : En) : State := { s with oe := en }

/-- `TxWrite(b)`: the byte, unmodified, joins the output stream with the enables that lead it, and waits in
`TXB` for `SETTLE_CYCLES` edges (R31, R114, R121). A byte still waiting is overwritten (R121, R126; entry 13). -/
def State.txWrite (s : State) (b : Byte) : State :=
  { s with out := s.out ++ [⟨s.oe, b⟩], txb := b, txp := s.cfg.settleCycles, txValid := false }

/-- `n <- n + 1` (spec/10_state.md R16). -/
def State.advance (s : State) : State := { s with n := s.n + 1 }

/-- The BYTE step of R110 for the byte `b`, whose route is `r` and after which the latch holds `rs'`. -/
def byteStep (r rs' : Route) (b : Byte) (s : State) : State :=
  let s1 := s.resolve.setRs rs'
  ((s1.drive (decidePorts r s1.win)).txWrite b).advance

/-- The echo's down-counter at an edge that accepts no byte; when it goes from 1 to 0, `tx_valid` is high
for the cycle that begins there and the byte has left (R121, R123). -/
def State.txTick (s : State) : State :=
  { s with
    txp := s.txp - 1
    txValid := s.txp == 1
    tx := if s.txp = 1 then s.tx ++ [⟨s.oe, s.txb⟩] else s.tx }

/-- The IDLE step of R116 at a clock edge: RESOLVE, and the echo's counter (R121). The enables, the latch and
the streams are not touched. -/
def idleStep (s : State) : State := s.resolve.txTick

/-- A rising edge with `rst` high (R124): every state element at its reset value, a byte still waiting is
dropped, `TXB` unspecified (R22, R150; a free value, entry 7), and the record of the run begins anew (entry 10). -/
def resetStep (s : State) : State :=
  { s with
    rs := .bcast, wsel := s.cfg.resetWsel, oe := s.cfg.resetEn, n := 0
    txp := 0, txValid := false, txb := Config.freeTxb s.freeIdx, freeIdx := s.freeIdx + 1
    out := [], tx := [] }

/-- The pin levels at the next edge: the next entry of the input list, or, when the environment supplies no
more, no byte, no reset and the switches as they stand (entry 2). -/
def State.nextEdge (s : State) : Edge :=
  match s.inputs with
  | [] => { rst := false, rxValid := false, rxByte := 0#8, cfgPin := s.cfgPin }
  | e :: _ => e

/-- The edge has come: its entry leaves the input list, each exactly once and in order (spec/20_memory.md R30),
and the configuration pins are sampled (R121). -/
def State.sample (s : State) : State :=
  { s with inputs := s.inputs.tail, cfgPin := s.nextEdge.cfgPin }

end Sys2Proof.Machine
end

