-- ==== Sys2Proof/Machine/Chan.lean ====
section
/-! DEFINITION. The meanings of the seven CHAN rows (spec/41_midi_state_machine.md R81). They share one
semantics; the kind of channel message, the high nibble, has no influence (spec/30_encoding.md R55). -/

namespace Sys2Proof.Machine

/-- The BYTE step of a channel status byte `b` for channel `n`: the route and the latch become `Ch(n)` (R81). -/
def latchChannel (n : Chan) (b : Byte) (s : State) : Host.Outcome State Fault Refusal :=
  .next (byteStep (.ch n) (.ch n) b s)

/-- `CHAN.8`, status bytes 0x80 to 0x8F (R81, R55). -/
def execChan8 (n : Chan) (s : State) : Host.Outcome State Fault Refusal :=
  latchChannel n (encode (.chan8 n)) s

/-- `CHAN.9`, status bytes 0x90 to 0x9F (R81, R55). -/
def execChan9 (n : Chan) (s : State) : Host.Outcome State Fault Refusal :=
  latchChannel n (encode (.chan9 n)) s

/-- `CHAN.A`, status bytes 0xA0 to 0xAF (R81, R55). -/
def execChanA (n : Chan) (s : State) : Host.Outcome State Fault Refusal :=
  latchChannel n (encode (.chanA n)) s

/-- `CHAN.B`, status bytes 0xB0 to 0xBF (R81, R55). -/
def execChanB (n : Chan) (s : State) : Host.Outcome State Fault Refusal :=
  latchChannel n (encode (.chanB n)) s

/-- `CHAN.C`, status bytes 0xC0 to 0xCF (R81, R55). -/
def execChanC (n : Chan) (s : State) : Host.Outcome State Fault Refusal :=
  latchChannel n (encode (.chanC n)) s

/-- `CHAN.D`, status bytes 0xD0 to 0xDF (R81, R55). -/
def execChanD (n : Chan) (s : State) : Host.Outcome State Fault Refusal :=
  latchChannel n (encode (.chanD n)) s

/-- `CHAN.E`, status bytes 0xE0 to 0xEF (R81, R55). -/
def execChanE (n : Chan) (s : State) : Host.Outcome State Fault Refusal :=
  latchChannel n (encode (.chanE n)) s

end Sys2Proof.Machine
end

