-- ==== Sys2Proof/Machine/Data.lean ====
section
/-! DEFINITION. The meaning of `DATA` (spec/41_midi_state_machine.md R80). -/

namespace Sys2Proof.Machine

/-- `DATA`: the route is the latch, the latch is unchanged; running-status passthrough (R80). -/
def execData (d : BitVec 7) (s : State) : Host.Outcome State Fault Refusal :=
  .next (byteStep s.rs s.rs (encode (.data d)) s)

end Sys2Proof.Machine
end

