-- ==== Sys2Proof/Machine/System.lean ====
section
/-! DEFINITION. The meanings of the system bytes `SYSCOM` and `SYSRT` (spec/41_midi_state_machine.md R82, R83). -/

namespace Sys2Proof.Machine

/-- `SYSCOM`: broadcast, and running status is cancelled (R82). -/
def execSyscom (k : BitVec 3) (s : State) : Host.Outcome State Fault Refusal :=
  .next (byteStep .bcast .bcast (encode (.syscom k)) s)

/-- `SYSRT`: broadcast for this byte only; the latch is not touched (R83; spec/90_conflicts.md C1, entry 16). -/
def execSysrt (k : BitVec 3) (s : State) : Host.Outcome State Fault Refusal :=
  .next (byteStep .bcast s.rs (encode (.sysrt k)) s)

end Sys2Proof.Machine
end

