-- ==== Sys2Proof/Machine/Dispatch.lean ====
section
/-! DEFINITION. The dispatch of an instruction to its meaning, one arm per constructor. -/

namespace Sys2Proof.Machine

def exec (i : Instr) (s : State) : Host.Outcome State Fault Refusal :=
  match i with
  | .data d => Sys2Proof.Machine.execData d s
  | .chan8 n => Sys2Proof.Machine.execChan8 n s
  | .chan9 n => Sys2Proof.Machine.execChan9 n s
  | .chanA n => Sys2Proof.Machine.execChanA n s
  | .chanB n => Sys2Proof.Machine.execChanB n s
  | .chanC n => Sys2Proof.Machine.execChanC n s
  | .chanD n => Sys2Proof.Machine.execChanD n s
  | .chanE n => Sys2Proof.Machine.execChanE n s
  | .syscom k => Sys2Proof.Machine.execSyscom k s
  | .sysrt k => Sys2Proof.Machine.execSysrt k s

end Sys2Proof.Machine
end

