-- ==== Sys2Proof/Machine/ClockEdge.lean ====
section
/-! DEFINITION. One rising clock edge of the pin-level realisation (spec/43_byte_step.md R121, R124): reset wins,
an edge with a byte is the BYTE step of the instruction the byte is, any other edge is the IDLE step (R127). -/

namespace Sys2Proof.Machine

/-- What an edge with pin levels `e` does, `s` being the state with those levels sampled (R121, R124, R134). -/
def clockEdge (e : Edge) (s : State) : Host.Outcome State Fault Refusal :=
  if e.rst then .next (resetStep s)
  else if e.rxValid then exec (decodeByte e.rxByte) s
  else .next (idleStep s)

/-- The edge that presents the first byte of the `nbits` bits of `w`, the switches left as they are; it is
how an instruction is placed where the machine reads its next one (entry 1). -/
def placedEdge (nbits w : Nat) (cfgPin : BitVec 2) : Edge :=
  match bytesOfWord (nbits / 8) w with
  | [] => { rst := false, rxValid := true, rxByte := 0#8, cfgPin := cfgPin }
  | b :: _ => { rst := false, rxValid := true, rxByte := b, cfgPin := cfgPin }

end Sys2Proof.Machine
end

