-- ==== Sys2Proof/Machine/Step.lean ====
section
/-! DEFINITION. The step function: one rising clock edge with the next pin levels the environment supplies
(spec/43_byte_step.md R117, R121, R127). -/

namespace Sys2Proof.Machine

/-- One step of the machine: a BYTE step, an IDLE step or a reset, as the next pin levels say (R117). -/
def step (s : State) : Host.Outcome State Fault Refusal := clockEdge s.nextEdge s.sample

/-- The state with one more edge in front of its inputs, at which the byte `w` is presented with the switches
as they stand, so that the next step runs it (entry 1). -/
def State.withFetchWord (s : State) (nbits w : Nat) : State :=
  { s with inputs := placedEdge nbits w s.cfgPin :: s.inputs }

end Sys2Proof.Machine
end

