-- ==== Sys2Proof/Machine/Abstract.lean ====
section
/-! DEFINITION. The abstract machine of spec/43_byte_step.md sections 1 to 3, as a function of its state elements and
inputs alone (R112, R116, R117): untimed, one step per byte or idle iteration, the observable pairs as its
output (spec/20_memory.md R44). The clocked machine of Step.lean is a realisation of it (R127). -/

namespace Sys2Proof.Machine

/-- The three state elements of the core (spec/10_state.md R10). -/
structure Arch where
  rs : Route
  wsel : Sel
  oe : En
  deriving DecidableEq, Repr

/-- A step of a run, with its inputs (R117): a BYTE step, or an IDLE step. -/
inductive AbsStep where
  | byte (b : Byte) (sel : Sel)
  | idle (sel : Sel)
  deriving DecidableEq, Repr

/-- The state elements of the clocked machine. -/
def State.arch (s : State) : Arch := { rs := s.rs, wsel := s.wsel, oe := s.oe }

/-- One abstract step and the pairs it emits: `step` of R112 for a byte, R116 for an idle iteration. -/
def Arch.step (a : Arch) : AbsStep → Arch × List Emit
  | .byte b sel =>
    let en := decidePorts (classify b a.rs).1 (windowOf sel)
    ({ rs := (classify b a.rs).2, wsel := sel, oe := en }, [⟨en, b⟩])
  | .idle sel => ({ a with wsel := sel }, [])

/-- A run and its trace (R117). -/
def Arch.run : Arch → List AbsStep → Arch × List Emit
  | a, [] => (a, [])
  | a, x :: xs =>
    let p := a.step x
    let q := p.1.run xs
    (q.1, p.2 ++ q.2)

/-- The abstract step that a clock edge without reset is (R127). -/
def Edge.abs (invert : Bool) (e : Edge) : AbsStep :=
  if e.rxValid then .byte e.rxByte (selOfPins invert e.cfgPin) else .idle (selOfPins invert e.cfgPin)

end Sys2Proof.Machine
end

