-- ==== Sys2Proof/Machine/Gates.lean ====
section
/-! DEFINITION. The gate-level reading of the three blocks: the next-state logic of the latch
(spec/41_midi_state_machine.md R93), the window as wiring (spec/40_config_window.md R78, spec/30_encoding.md R64), the
mapper on the two buses and its closed form (spec/42_port_mapper.md R104, R109). -/

namespace Sys2Proof.Machine

/-- R93: the route bus and the next pattern of the latch, from the byte and the present pattern. -/
def gateLatch (b : Byte) (v : BitVec 5) : BitVec 5 × BitVec 5 :=
  let st := b.getLsbD 7
  let sys := b.extractLsb' 4 4 == 0b1111#4
  let loadChan := st && !sys
  let loadBcast := sys && !b.getLsbD 3
  let nibble := b.extractLsb' 0 4
  let oldB := v.getLsbD 4
  let oldCh := v.extractLsb' 0 4
  let newB := if loadBcast then true else if loadChan then false else oldB
  let newCh := if loadBcast then 0#4 else if loadChan then nibble else oldCh
  let routeB := if sys then true else if st then false else oldB
  let routeCh := if sys then 0#4 else if st then nibble else oldCh
  (BitVec.ofBool routeB ++ routeCh, BitVec.ofBool newB ++ newCh)

/-- The window bus: entry `i` is the two selector bits above the constant `i` (R64, R78). -/
def windowBus (sel : Sel) : BitVec 16 := (sel ++ 3#2) ++ (sel ++ 2#2) ++ (sel ++ 1#2) ++ (sel ++ 0#2)

/-- Entry `i` of the window bus, bits 4i+3 down to 4i (R64). -/
def busEntry (w : BitVec 16) (i : Port) : Chan := w.extractLsb' (4 * i.val) 4

/-- The mapper on the two buses: bit 4 of the route first, then one comparison per entry (R100, R109). -/
def gateDecide (r : BitVec 5) (w : BitVec 16) : En :=
  if r.getLsbD 4 then 0b1111#4
  else
    let ch := r.extractLsb' 0 4
    enOf (busEntry w 0 == ch) (busEntry w 1 == ch) (busEntry w 2 == ch) (busEntry w 3 == ch)

/-- The closed form of the enables for a route and a selector: one-hot of the low two channel bits, gated
by the hit, all ones under BROADCAST (R104). -/
def onehotEnables (r : Route) (sel : Sel) : En :=
  match r with
  | .bcast => 0b1111#4
  | .ch c => if c.extractLsb' 2 2 = sel then 0b0001#4 <<< c.extractLsb' 0 2 else 0b0000#4

/-- The registers of the gate-level core (R11, R93). -/
structure GateState where
  rsBits : BitVec 5
  wsel : Sel
  oe : En
  deriving DecidableEq, Repr

/-- The gate-level registers that hold an abstract state. -/
def Arch.toGates (a : Arch) : GateState := { rsBits := routeBits a.rs, wsel := a.wsel, oe := a.oe }

/-- One step of the gate-level core. -/
def GateState.step (g : GateState) : AbsStep → GateState × List Emit
  | .byte b sel =>
    let en := gateDecide (gateLatch b g.rsBits).1 (windowBus sel)
    ({ rsBits := (gateLatch b g.rsBits).2, wsel := sel, oe := en }, [⟨en, b⟩])
  | .idle sel => ({ g with wsel := sel }, [])

/-- A run of the gate-level core and its trace. -/
def GateState.run : GateState → List AbsStep → GateState × List Emit
  | g, [] => (g, [])
  | g, x :: xs =>
    let p := g.step x
    let q := p.1.run xs
    (q.1, p.2 ++ q.2)

end Sys2Proof.Machine
end

