-- ==== Sys2Proof/Safety.lean ====
section
/-! DEFINITION. The terms the statements are made in: runs of the clocked machine, what the environment owes it, the
invariant of a state, and the closed forms the spec gives for the latch, the route and the port streams. -/

namespace Sys2Proof.Machine

/-- `k` steps, stopping at the first that has no next state. -/
def stepN : Nat → State → Host.Outcome State Fault Refusal
  | 0, s => .next s
  | k + 1, s =>
    match step s with
    | .next t => stepN k t
    | .fault f => .fault f
    | .refused r => .refused r

/-- The run in which exactly the edges `es` come, from `s` (R117, R119). -/
def runEdges (s : State) (es : List Edge) : Host.Outcome State Fault Refusal :=
  stepN es.length { s with inputs := es }

/-- No edge of the list asserts reset. -/
abbrev NoReset (es : List Edge) : Prop := ∀ e ∈ es, e.rst = false

/-- The premise of R126 on the input alone: in the next `k` edges, and in the `settle` edges after every
accepted byte, no byte comes. -/
def spaced (settle : Nat) : Nat → List Edge → Bool
  | _, [] => true
  | k, e :: es => if e.rxValid then k == 0 && spaced settle settle es else spaced settle (k - 1) es

/-- The bytes accepted in a list of edges, each with the selector present with it. -/
def fed (invert : Bool) : List Edge → List (Byte × Sel)
  | [] => []
  | e :: es =>
    if e.rxValid then (e.rxByte, selOfPins invert e.cfgPin) :: fed invert es else fed invert es

/-- The bytes accepted in a list of edges. -/
def bytesFed (es : List Edge) : List Byte := (fed false es).map Prod.fst

/-- A byte in 0x80 to 0xF7: a CHAN or a SYSCOM byte, the only ones that write the latch (R87). -/
def latching (b : Byte) : Bool := decide (0x80#8 ≤ b ∧ b ≤ 0xF7#8)

/-- The closed form of the latch after a byte sequence from reset (R87). -/
def latchAfter (bs : List Byte) : Route :=
  match (bs.filter latching).getLast? with
  | none => .bcast
  | some b => if 0xF0#8 ≤ b then .bcast else .ch (b.extractLsb' 0 4)

/-- The closed form of the route of a byte that comes after the bytes `before`, from reset (R88). -/
def routeAfter (before : List Byte) (b : Byte) : Route :=
  match classOf b with
  | .sysrt => .bcast
  | .syscom => .bcast
  | .chan => .ch (b.extractLsb' 0 4)
  | .data => latchAfter before

/-- The routes of a byte sequence that starts with the latch at `rs` (spec/41_midi_state_machine.md R84). -/
def routesFrom : Route → List Byte → List Route
  | _, [] => []
  | rs, b :: bs => (classify b rs).1 :: routesFrom (classify b rs).2 bs

/-- The stream port `i` sees: the bytes whose enable vector has bit `i` set (spec/20_memory.md R45). -/
def portStream (i : Port) (out : List Emit) : List Byte :=
  (out.filter fun x => x.en.getLsbD i.val).map Emit.byte

/-- The six enable patterns (spec/42_port_mapper.md R103). -/
def sixPatterns : List En := [0b1111#4, 0b0001#4, 0b0010#4, 0b0100#4, 0b1000#4, 0b0000#4]

/-- The state after the BYTE step of a byte `b` with route `r` and new latch `rs'`, in the spec's closed
form (R110, R115, R121): everything the step writes, and so everything it leaves alone. -/
def afterByte (s : State) (r rs' : Route) (b : Byte) : State :=
  { s with
    rs := rs', wsel := s.sel, oe := onehotEnables r s.sel, n := s.n + 1
    out := s.out ++ [⟨onehotEnables r s.sel, b⟩]
    txb := b, txp := s.cfg.settleCycles, txValid := false }

/-- The effect of the BYTE step of a byte `b` with route `r` and new latch `rs'` on what the core itself
holds (R110, R112), and its frame: the parameters, the pins, the inputs to come and the echoes already
made are as before. The clause on `tx`, where a byte waits, is entry 13, and the one on `freeIdx` entry 7. -/
structure ByteEffect (s t : State) (r rs' : Route) (b : Byte) : Prop where
  rs : t.rs = rs'
  wsel : t.wsel = s.sel
  oe : t.oe = decidePorts r (windowOf s.sel)
  out : t.out = s.out ++ [⟨decidePorts r (windowOf s.sel), b⟩]
  n : t.n = s.n + 1
  cfg : t.cfg = s.cfg
  cfgPin : t.cfgPin = s.cfgPin
  inputs : t.inputs = s.inputs
  tx : t.tx = s.tx
  freeIdx : t.freeIdx = s.freeIdx

/-- What the echo still owes: the pair decided last, while its byte waits in `TXB`. -/
def pending (s : State) : List Emit := if 0 < s.txp then [⟨s.oe, s.txb⟩] else []

/-- What holds in every state of a run, from reset on (R118, R23, R122, R127). -/
structure Inv (s : State) : Prop where
  /-- `SETTLE_CYCLES` is at least 1. -/
  params : s.cfg.wf = true
  /-- The counter never exceeds what it is loaded with. -/
  counter : s.txp ≤ s.cfg.settleCycles
  /-- `tx_valid` is high only when nothing waits. -/
  pulse : s.txValid = true → s.txp = 0
  /-- `n` counts the pairs of the output stream. -/
  index : s.n = s.out.length
  /-- The pins hold the last byte's decision, and `RESET_EN` before the first byte. -/
  enables : s.oe = (s.out.getLast?.map Emit.en).getD s.cfg.resetEn
  /-- `TXB` holds the last byte. -/
  byte : ∀ x, s.out.getLast? = some x → s.txb = x.byte
  /-- Every decision was one of the six patterns. -/
  patterns : ∀ x ∈ s.out, x.en ∈ sixPatterns
  /-- Only decided pairs leave the pins, in their order, each at most once; the last not before its time. -/
  echoed : s.tx.Sublist (if 0 < s.txp then s.out.dropLast else s.out)
  /-- A byte waits only if one was accepted. -/
  waits : 0 < s.txp → s.out ≠ []
  /-- While `tx_valid` is high the pins show the echoed pair. -/
  shown : s.txValid = true → s.tx.getLast? = some ⟨s.oe, s.txb⟩

end Sys2Proof.Machine
end

