-- ==== Sys2Proof/Certificates/Slice0/Obligations.lean ====
section
/-! DEFINITION. The statements for the provers. Each docstring names the rules of spec/ it formalises; where a clause
rests on a rule the spec marks as its own decision or on an entry of notes/assumptions, the docstring says so. -/

open Sys2Proof Sys2Proof.Machine

/-! Encoding -/

/-- Encoding and decoding are inverse: every instruction decodes from its byte, alone or at the head of a
list of which it takes exactly one byte, and every byte is the encoding of what it decodes to (R50 to R58, R65). -/
def Obligations.DecodeAndEncodeAreInverse : Prop :=
  (∀ i : Instr, decodeByte (encode i) = i) ∧
  (∀ (i : Instr) (rest : List Byte), decode (encode i :: rest) = .ok (i, rest)) ∧
  (∀ b : Byte, encode (decodeByte b) = b)

/-- Exactly one row of the opcode table selects a byte, and it is the row of the decoded instruction (R53, R66). -/
def Obligations.OneTableRowSelectsEachByte : Prop :=
  ∀ b : Byte, opcodeTable.filter (fun r => r.selects b) = [(decodeByte b).row]

/-- The four classes are the four numeric ranges, the bit tests agree with the ranges, the decoded instruction
has the class, and CLASSIFY does in each range what the table of R52 says; in every class but SYSRT the route
is the new latch (R52, R84). -/
def Obligations.ClassesAreTheFourRanges : Prop :=
  ∀ (b : Byte) (rs : Route),
    (decodeByte b).cls = classOf b ∧
    (0xF8#8 ≤ b → classOf b = .sysrt ∧ classify b rs = (.bcast, rs)) ∧
    (0xF0#8 ≤ b → b ≤ 0xF7#8 → classOf b = .syscom ∧ classify b rs = (.bcast, .bcast)) ∧
    (0x80#8 ≤ b → b ≤ 0xEF#8 →
      classOf b = .chan ∧ classify b rs = (.ch (b.extractLsb' 0 4), .ch (b.extractLsb' 0 4))) ∧
    (b ≤ 0x7F#8 → classOf b = .data ∧ classify b rs = (rs, rs)) ∧
    (classOf b ≠ .sysrt → (classify b rs).1 = (classify b rs).2)

/-- One byte of each row, written out from the row's bit pattern, decodes to the row's instruction (R51, R55 to R58). -/
def Obligations.WrittenOutBytesDecode : Prop :=
  decodeTableWord 8 0b00111100 = some (.data 0b0111100#7) ∧
  decodeTableWord 8 0b10000000 = some (.chan8 0#4) ∧
  decodeTableWord 8 0b10010001 = some (.chan9 1#4) ∧
  decodeTableWord 8 0b10101111 = some (.chanA 15#4) ∧
  decodeTableWord 8 0b10110111 = some (.chanB 7#4) ∧
  decodeTableWord 8 0b11000101 = some (.chanC 5#4) ∧
  decodeTableWord 8 0b11011010 = some (.chanD 10#4) ∧
  decodeTableWord 8 0b11101111 = some (.chanE 15#4) ∧
  decodeTableWord 8 0b11110010 = some (.syscom 2#3) ∧
  decodeTableWord 8 0b11111010 = some (.sysrt 2#3)

/-! The three blocks -/

/-- The whole lookup table is 4*s + i, exactly and without wrap, and the window of a selector lists its entries for
ports 0 to 3 (R70). -/
def Obligations.WindowEntryIsFourTimesSelectorPlusPort : Prop :=
  (∀ (s : Sel) (i : Port), (lut s i).toNat = 4 * s.toNat + i.val) ∧
  (∀ (s : Sel) (i : Port), (windowOf s)[i] = lut s i) ∧
  windowOf 2#2 = #v[8#4, 9#4, 10#4, 11#4] ∧ windowOf 0#2 = #v[0#4, 1#4, 2#4, 3#4]

/-- Every window is four consecutive channels, and a channel is entry `i` of the window of `s` exactly when `s` is its
high half and `i` its low half, so it is in one window, at one port (R33, R76; the spec derives both from R70). -/
def Obligations.EachChannelIsInOneWindowAtOnePort : Prop :=
  (∀ s : Sel, windowWf (windowOf s) = true) ∧
  (∀ (s : Sel) (i : Port) (c : Chan),
    (windowOf s)[i] = c ↔ c.extractLsb' 2 2 = s ∧ (c.extractLsb' 0 2).toNat = i.val)

/-- RESOLVE writes the selector present into `WSEL` and nothing else, returns that selector's window whatever
`WSEL` was, and a second RESOLVE with the same selector changes nothing (R71, R75). -/
def Obligations.ResolveWritesOnlyTheLatchedSelector : Prop :=
  ∀ s : State,
    s.resolve = { s with wsel := s.sel } ∧
    s.resolve.win = windowOf s.sel ∧
    s.resolve.resolve = s.resolve ∧ s.resolve.resolve.win = s.resolve.win

/-- DECIDE: broadcast enables all four ports whatever the window; in a window of consecutive channels, as every
window is, a channel enables exactly the port of the entry equal to it, and found at entry `i` it enables port `i`
alone; not found it enables none (R100). -/
def Obligations.DecideEnablesExactlyTheMatchingPort : Prop :=
  (∀ w : Window, decidePorts .bcast w = 0b1111#4) ∧
  (∀ (c : Chan) (w : Window) (i : Port), windowWf w = true →
    (decidePorts (.ch c) w).getLsbD i.val = (w[i] == c)) ∧
  (∀ (s : Sel) (i : Port), decidePorts (.ch (lut s i)) (windowOf s) = 0b0001#4 <<< i.val) ∧
  (∀ (c : Chan) (w : Window), (∀ i : Port, w[i] ≠ c) → decidePorts (.ch c) w = 0b0000#4)

/-- THE MODEL'S CHOICE (entry 14): DECIDE compares each entry of any window whatever, one with repeated entries too,
where it enables every port whose entry is the channel. The source does not say which port such a window takes (R108, U8,
N17), and no selector produces one. -/
def Obligations.DecideComparesEachEntryOfAnyWindow : Prop :=
  ∀ (c : Chan) (w : Window) (i : Port), (decidePorts (.ch c) w).getLsbD i.val = (w[i] == c)

/-- The closed form of the enables: one-hot of the channel's low two bits when its high two bits are the
selector, none otherwise, all under broadcast (R104; the table of R105 is its tabulation). -/
def Obligations.EnablesAreOneHotGatedByHit : Prop :=
  ∀ (r : Route) (s : Sel), decidePorts r (windowOf s) = onehotEnables r s

/-- A selector is the two raw pins, inverted exactly when `CFG_INVERT` is set: both inactive (pulled high) is
selector 0 when inverted and 3 when not. The inversion's default is the spec's own decision D6 (R62, entry 3). -/
def Obligations.SelectorIsThePinsInvertedIfConfigured : Prop :=
  (∀ (pin : BitVec 2) (i : Fin 2), (selOfPins true pin).getLsbD i.val = !pin.getLsbD i.val) ∧
  (∀ (pin : BitVec 2) (i : Fin 2), (selOfPins false pin).getLsbD i.val = pin.getLsbD i.val) ∧
  selOfPins true 0b11#2 = 0#2 ∧ selOfPins false 0b11#2 = 3#2

/-- Pin `oe_n[i]` is low exactly when port `i` is enabled (R63, R113: the sentence "active-low (logic 0 = enabled)"
is the source's, the bit order is the spec's own decision D8). -/
def Obligations.EnablePinsAreActiveLow : Prop :=
  ∀ (s : State) (i : Port), s.oeN.getLsbD i.val = !s.oe.getLsbD i.val

/-- The 5-bit pattern of a route is canonical, is read back as that route, and the patterns 0x11 to 0x1F, which
no route has, are read as broadcast; the flag is set exactly under broadcast. The pattern is the spec's own
decision D1 (R11, R13, R18, R109; entry 15). -/
def Obligations.RoutePatternsAreCanonical : Prop :=
  (∀ r : Route, routeBitsCanonical (routeBits r) = true ∧ routeOfBits (routeBits r) = r) ∧
  (∀ v : BitVec 5, routeBitsCanonical v = true → routeBits (routeOfBits v) = v) ∧
  (∀ v : BitVec 5, 0x11#5 ≤ v → routeBitsCanonical v = false ∧ routeOfBits v = .bcast) ∧
  (∀ s : State, s.b = true ↔ s.rs = .bcast)

/-! The instructions: each runs from every state -/

/-- DATA runs in every state: its route is the latch, the latch is unchanged, and the byte 0ddddddd is emitted
with the enables of that route (R80, R110).
The selector used is the pins decoded under `CFG_INVERT`
(entry 3), and the pins and the input list are as before (entry 1). That no echo is made at this step even while a byte
waits rests on section 4 of 43_byte_step.md and is the model's reading of R121 and R126 (entry 13), and that the free
value's counter stands still is the model's (entry 7). -/
def Obligations.DataFollowsTheLatch : Prop :=
  ∀ (d : BitVec 7) (s : State),
    ∃ t, exec (.data d) s = .next t ∧ ByteEffect s t s.rs s.rs (0b0#1 ++ d)

/-- Each of the seven CHAN rows runs in every state: the route and the latch become the channel in the low
nibble, whatever the latch was and whatever the high nibble is, and the byte is emitted (R81, R110).
The selector used is the pins decoded under `CFG_INVERT`
(entry 3), and the pins and the input list are as before (entry 1). That no echo is made at this step even while a byte
waits rests on section 4 of 43_byte_step.md and is the model's reading of R121 and R126 (entry 13), and that the free
value's counter stands still is the model's (entry 7). -/
def Obligations.ChanLatchesItsLowNibble : Prop :=
  ∀ (n : Chan) (s : State),
    (∃ t, exec (.chan8 n) s = .next t ∧ ByteEffect s t (.ch n) (.ch n) (0x8#4 ++ n)) ∧
    (∃ t, exec (.chan9 n) s = .next t ∧ ByteEffect s t (.ch n) (.ch n) (0x9#4 ++ n)) ∧
    (∃ t, exec (.chanA n) s = .next t ∧ ByteEffect s t (.ch n) (.ch n) (0xA#4 ++ n)) ∧
    (∃ t, exec (.chanB n) s = .next t ∧ ByteEffect s t (.ch n) (.ch n) (0xB#4 ++ n)) ∧
    (∃ t, exec (.chanC n) s = .next t ∧ ByteEffect s t (.ch n) (.ch n) (0xC#4 ++ n)) ∧
    (∃ t, exec (.chanD n) s = .next t ∧ ByteEffect s t (.ch n) (.ch n) (0xD#4 ++ n)) ∧
    (∃ t, exec (.chanE n) s = .next t ∧ ByteEffect s t (.ch n) (.ch n) (0xE#4 ++ n))

/-- SYSCOM runs in every state: the byte is broadcast and running status is cancelled (R82, R110).
The selector used is the pins decoded under `CFG_INVERT`
(entry 3), and the pins and the input list are as before (entry 1). That no echo is made at this step even while a byte
waits rests on section 4 of 43_byte_step.md and is the model's reading of R121 and R126 (entry 13), and that the free
value's counter stands still is the model's (entry 7). -/
def Obligations.SyscomCancelsRunningStatus : Prop :=
  ∀ (k : BitVec 3) (s : State),
    ∃ t, exec (.syscom k) s = .next t ∧ ByteEffect s t .bcast .bcast (0b11110#5 ++ k)

/-- SYSRT runs in every state: the byte is broadcast and the latch is untouched (R83, R110; spec/90_conflicts.md C1).
The selector used is the pins decoded under `CFG_INVERT`
(entry 3), and the pins and the input list are as before (entry 1). That no echo is made at this step even while a byte
waits rests on section 4 of 43_byte_step.md and is the model's reading of R121 and R126 (entry 13), and that the free
value's counter stands still is the model's (entry 7). -/
def Obligations.SysrtBroadcastsAndKeepsTheLatch : Prop :=
  ∀ (k : BitVec 3) (s : State),
    ∃ t, exec (.sysrt k) s = .next t ∧ ByteEffect s t .bcast s.rs (0b11111#5 ++ k)

/-- The BYTE step by class, as one equation between whole states, with the enables in closed form: what it
writes and that it leaves everything else alone (R115). The values of `TXB`, `TXP` and `tx_valid` rest on R121, which
the spec marks as its own decision (43_byte_step.md, section 4); that a byte still waiting is overwritten and leaves no
echo is the model's reading of R121 and R126 (entry 13), and that the free value's counter stands still is the model's
(entry 7). -/
def Obligations.ByteStepByClass : Prop :=
  ∀ (b : Byte) (s : State),
    exec (decodeByte b) s = .next
      (match classOf b with
       | .data => afterByte s s.rs s.rs b
       | .chan => afterByte s (.ch (b.extractLsb' 0 4)) (.ch (b.extractLsb' 0 4)) b
       | .syscom => afterByte s .bcast .bcast b
       | .sysrt => afterByte s .bcast s.rs b)

/-- Nothing an instruction does depends on the latched selector or the enables of the state before (R72, R106,
R112, R168): full recomputation. -/
def Obligations.InstructionsIgnoreOldSelectorAndEnables : Prop :=
  ∀ (i : Instr) (s : State) (w : Sel) (e : En), exec i { s with wsel := w, oe := e } = exec i s

/-- A window miss disables all four ports, whatever they were: a CHAN byte, by any of the seven rows, of a channel
outside the window of the selector present, and a DATA byte while the latch holds one. The byte is emitted all
the same and the latch is as usual (R102). -/
def Obligations.MissDisablesAllPorts : Prop :=
  ∀ (s : State) (c : Chan), c.extractLsb' 2 2 ≠ s.sel →
    (∀ b : Byte, classOf b = .chan → b.extractLsb' 0 4 = c →
      ∃ t, exec (decodeByte b) s = .next t ∧ t.oe = 0b0000#4 ∧ t.rs = .ch c ∧ t.out = s.out ++ [⟨0b0000#4, b⟩]) ∧
    (s.rs = .ch c → ∀ b : Byte, classOf b = .data →
      ∃ t, exec (decodeByte b) s = .next t ∧ t.oe = 0b0000#4 ∧ t.rs = .ch c ∧ t.out = s.out ++ [⟨0b0000#4, b⟩])

/-- Every decision an instruction makes is one of the six patterns: never two or three ports (R23, R103). -/
def Obligations.EnablesAreOneOfSixPatterns : Prop :=
  ∀ (i : Instr) (s t : State), exec i s = .next t → t.oe ∈ sixPatterns

/-! The step -/

/-- When a byte is presented, the step is the execution of the instruction the byte decodes to, in the state
whose pins are sampled and whose input list is one shorter (R30, R121; clocking is the spec's own decision D2, D4,
and the input list is the model's, entry 1). -/
def Obligations.StepRunsTheDecodedByte : Prop :=
  ∀ (s : State) (e : Edge) (rest : List Edge),
    s.inputs = e :: rest → e.rst = false → e.rxValid = true →
    step s = exec (decodeByte e.rxByte) { s with inputs := rest, cfgPin := e.cfgPin }

/-- The word the host places is the instruction the next step runs, in the very state it was placed in (entry 1). -/
def Obligations.PlacedWordRunsNext : Prop :=
  ∀ (s : State) (w : Nat), step (s.withFetchWord 8 w) = exec (decodeByte (BitVec.ofNat 8 w)) s

/-- The BYTE step of the byte presented, as R110 composes it: the selector present is resolved and its window used;
the byte is read once, classified against the latch, its enables decided and driven, and the same byte emitted after
them; the stream index goes up by one. That the step is the clock edge that presents the byte, with byte and switches
sampled together, is R121, the spec's own decision (D2, D4, D5; entry 18); the selector is the raw pins decoded under
`CFG_INVERT`, the spec's own decision D6 (R62, entry 3); the input list is the model's (entry 1). That no echo is made at
this edge even while a byte waits is the model's reading of R121 and R126 (entry 13), and that the free value's counter
stands still is the model's (entry 7). -/
def Obligations.ByteStepResolvesClassifiesDecidesDrivesEmits : Prop :=
  ∀ (s : State) (e : Edge) (rest : List Edge),
    s.inputs = e :: rest → e.rst = false → e.rxValid = true →
    ∃ t, step s = .next t ∧
      t.wsel = selOfPins s.cfg.cfgInvert e.cfgPin ∧
      t.inputs = rest ∧
      t.rs = (classify e.rxByte s.rs).2 ∧
      t.oe = decidePorts (classify e.rxByte s.rs).1 (windowOf (selOfPins s.cfg.cfgInvert e.cfgPin)) ∧
      t.oeN = ~~~t.oe ∧
      t.out = s.out ++ [⟨t.oe, e.rxByte⟩] ∧
      t.n = s.n + 1 ∧
      t.cfg = s.cfg ∧ t.cfgPin = e.cfgPin ∧ t.tx = s.tx ∧ t.freeIdx = s.freeIdx

/-- An edge with neither byte nor reset is an IDLE step: the selector is latched, the echo's counter goes down, and
when it goes from 1 to 0 the waiting byte leaves with the enables on the pins; nothing else changes. R116 is the spec's
own decision D17, R121 and R123 its own (43_byte_step.md, section 4). -/
def Obligations.EdgeWithoutByteIsIdle : Prop :=
  ∀ (s : State) (e : Edge) (rest : List Edge),
    s.inputs = e :: rest → e.rst = false → e.rxValid = false →
    step s = .next { s with
      inputs := rest, cfgPin := e.cfgPin, wsel := selOfPins s.cfg.cfgInvert e.cfgPin
      txp := s.txp - 1, txValid := s.txp == 1
      tx := if s.txp = 1 then s.tx ++ [⟨s.oe, s.txb⟩] else s.tx }

/-- THE MODEL'S CHOICE (entry 2): when the environment supplies no further edge the pins rest, and the step is an
IDLE step with the switches as they are. -/
def Obligations.RestingPinsGiveIdleSteps : Prop :=
  ∀ s : State, s.inputs = [] →
    step s = .next { s with
      wsel := s.sel, txp := s.txp - 1, txValid := s.txp == 1
      tx := if s.txp = 1 then s.tx ++ [⟨s.oe, s.txb⟩] else s.tx }

/-- A reset edge, whatever else the pins say, gives the reset state of the machine's parameters, the pins as sampled.
`TXB` is left open (R22, entry 7). R124 and R150 are the spec's own decisions (D3, D9, D13, D20); that the record of
the run begins anew is the model's choice (entry 10). -/
def Obligations.ResetEdgeRestoresTheResetState : Prop :=
  ∀ (s : State) (e : Edge) (rest : List Edge), s.inputs = e :: rest → e.rst = true →
    ∃ t, step s = .next t ∧
      t.rs = .bcast ∧ t.wsel = s.cfg.resetWsel ∧ t.oe = s.cfg.resetEn ∧ t.n = 0 ∧
      t.txp = 0 ∧ t.txValid = false ∧ t.out = [] ∧ t.tx = [] ∧
      t.cfg = s.cfg ∧ t.cfgPin = e.cfgPin ∧ t.inputs = rest

/-- What reset leaves, for all parameters and at the defaults. `RS` is the source's; the other values are the spec's
own decisions D9, D13 (R21, R150; entries 4 and 5). -/
def Obligations.ResetLeavesTheStatedValues : Prop :=
  (∀ p : Config.Params,
    (State.resetWith p).rs = .bcast ∧ (State.resetWith p).wsel = p.resetWsel ∧ (State.resetWith p).oe = p.resetEn ∧
    (State.resetWith p).n = 0 ∧ (State.resetWith p).txp = 0 ∧ (State.resetWith p).txValid = false ∧
    (State.resetWith p).b = true) ∧
  State.reset.rs = .bcast ∧ State.reset.wsel = 0#2 ∧ State.reset.oe = 0b1111#4 ∧ State.reset.oeN = 0b0000#4 ∧
  State.reset.n = 0 ∧ State.reset.txp = 0

/-- After any step but a reset the latched selector is the selector sampled in that step, whatever else the pins say
(R14, R118). -/
def Obligations.StepLatchesThePresentSelector : Prop :=
  ∀ s t : State, step s = .next t → s.nextEdge.rst = false →
    t.wsel = selOfPins s.cfg.cfgInvert s.nextEdge.cfgPin

/-- The enable lines, the latch, the index and the output stream move only at an edge that accepts a byte or resets:
a selector change alone moves none of them (R17, R122, R163; holding between bytes is the spec's own decision D9, D17). -/
def Obligations.EnablesMoveOnlyWhenAByteIsAccepted : Prop :=
  ∀ s t : State, step s = .next t → s.nextEdge.rst = false → s.nextEdge.rxValid = false →
    t.oe = s.oe ∧ t.oeN = s.oeN ∧ t.rs = s.rs ∧ t.n = s.n ∧ t.out = s.out ∧ t.txb = s.txb

/-- No step changes the parameters, and no step but a reset touches the free value's counter: the OPEN parameters
of R4 are fixed for a machine (the counter is the model's, entry 7). -/
def Obligations.StepsKeepTheParameters : Prop :=
  ∀ s t : State, step s = .next t →
    t.cfg = s.cfg ∧ (s.nextEdge.rst = false → t.freeIdx = s.freeIdx)

/-- There is no fault, and every run of every length from every state answers a next state (R130). -/
def Obligations.EveryRunAnswersANextState : Prop :=
  (Fault → False) ∧ ∀ (k : Nat) (s : State), ∃ t, stepN k s = .next t

/-- A reset in the middle of a message loses the running status: a DATA byte that comes next is broadcast (R155). That
the record of the run begins anew is the model's choice (entry 10). -/
def Obligations.ResetLosesTheRunningStatus : Prop :=
  ∀ (s : State) (e1 e2 : Edge) (rest : List Edge),
    s.inputs = e1 :: e2 :: rest → e1.rst = true →
    e2.rst = false → e2.rxValid = true → classOf e2.rxByte = .data →
    ∃ t, stepN 2 s = .next t ∧ t.rs = .bcast ∧ t.oe = 0b1111#4 ∧ t.out = [⟨0b1111#4, e2.rxByte⟩]

/-! Invariants -/

/-- The invariant holds at reset, for every well-formed choice of the parameters, and at the default one. -/
def Obligations.InvariantHoldsAtReset : Prop :=
  (∀ p : Config.Params, p.wf = true → Inv (State.resetWith p)) ∧ Inv State.reset

/-- Every step from a state that meets the invariant gives a state that meets it: the pins hold the last byte's
decision, one of six; the index counts the bytes; and only decided pairs leave the pins, in order, with the enables
decided for them on the lines (R118, R122, R127, R161). The clauses on `TXB`, `TXP` and `tx_valid` rest on section 4 of
43_byte_step.md, the spec's own decision; runs that begin anew at a reset are the model's choice (entry 10), and
that only decided pairs leave is said without the spacing premise, on the model's reading of an early byte (entry 13). -/
def Obligations.EveryStepKeepsTheInvariant : Prop :=
  ∀ s t : State, Inv s → step s = .next t → Inv t

/-! Runs -/

/-- The clocked machine is a realisation of the abstract one: over any edges without reset, its state elements and its
output stream are those of the abstract run (R112, R127). -/
def Obligations.ClockedMachineRefinesTheAbstractOne : Prop :=
  ∀ (s : State) (es : List Edge), NoReset es →
    ∃ t, runEdges s es = .next t ∧
      t.arch = (s.arch.run (es.map (Edge.abs s.cfg.cfgInvert))).1 ∧
      t.out = s.out ++ (s.arch.run (es.map (Edge.abs s.cfg.cfgInvert))).2

/-- Under the spacing premise of R126, what leaves the pins is the abstract trace, the last pair perhaps still waiting:
no byte is lost, altered or reordered, and each leaves with the enables decided for it. Section 4 of 43_byte_step.md is
the spec's own decision; a run that breaks the premise is not claimed about (entry 13). -/
def Obligations.SpacedBytesAreEchoedWithTheirEnables : Prop :=
  ∀ (s : State) (es : List Edge), s.cfg.wf = true → NoReset es → spaced s.cfg.settleCycles s.txp es = true →
    ∃ t, runEdges s es = .next t ∧
      t.tx ++ pending t = s.tx ++ pending s ++ (s.arch.run (es.map (Edge.abs s.cfg.cfgInvert))).2

/-- The echo comes `SETTLE_CYCLES` edges after an accepting edge at which nothing waits, with quiet edges after it, so
that the spacing premise of R126 holds: `tx_valid` is high exactly
at that edge, `tx_byte` is the byte, and the enables have been the decision for it all along (R123, R160). Section 4 of
43_byte_step.md is the spec's own decision D10. -/
def Obligations.EchoComesSettleCyclesAfterTheDecision : Prop :=
  ∀ (s : State) (e : Edge) (quiet : List Edge), s.cfg.wf = true → s.txp = 0 →
    e.rst = false → e.rxValid = true → (∀ q ∈ quiet, q.rst = false ∧ q.rxValid = false) →
    ∃ t, runEdges s (e :: quiet) = .next t ∧
      t.oe = onehotEnables (classify e.rxByte s.rs).1 (selOfPins s.cfg.cfgInvert e.cfgPin) ∧
      (t.txValid = true ↔ quiet.length = s.cfg.settleCycles) ∧
      t.txByte = e.rxByte ∧
      t.tx = s.tx ++ (if s.cfg.settleCycles ≤ quiet.length then [⟨t.oe, e.rxByte⟩] else [])

/-- The output stream copies the input stream: the same bytes, in the same order, as many, whatever their class, the
selector, and the enables (R31). -/
def Obligations.OutputStreamCopiesTheInputStream : Prop :=
  ∀ (s : State) (es : List Edge), NoReset es →
    ∃ t, runEdges s es = .next t ∧
      t.out.map Emit.byte = s.out.map Emit.byte ++ bytesFed es ∧
      t.n = s.n + (bytesFed es).length

/-- The closed form of the latch: the last byte in 0x80 to 0xF7 decides it; DATA and SYSRT bytes never matter (R87). -/
def Obligations.LatchIsDecidedByTheLastLatchingByte : Prop :=
  ∀ (s : State) (es : List Edge), s.rs = .bcast → NoReset es →
    ∃ t, runEdges s es = .next t ∧ t.rs = latchAfter (bytesFed es)

/-- The whole trace in closed form: pair number N is the one-hot decision, for the selector present with byte N, of the
route that the bytes before it and the byte itself give, and the byte (R74, R88, R104). -/
def Obligations.TraceClosedForm : Prop :=
  ∀ (s : State) (es : List Edge), s.rs = .bcast → NoReset es →
    ∃ t, runEdges s es = .next t ∧
      t.out.length = s.out.length + (fed s.cfg.cfgInvert es).length ∧
      ∀ (N : Nat) (p : Byte × Sel), (fed s.cfg.cfgInvert es)[N]? = some p →
        t.out[s.out.length + N]? =
          some ⟨onehotEnables (routeAfter (((fed s.cfg.cfgInvert es).take N).map Prod.fst) p.1) p.2, p.1⟩

/-- With a fixed selector, port `i` receives exactly the bytes whose route is broadcast or the channel the window gives
to port `i`, in order (R45). -/
def Obligations.PortReceivesBroadcastsAndItsChannel : Prop :=
  ∀ (s : State) (es : List Edge) (sel : Sel) (i : Port), NoReset es →
    (∀ e ∈ es, e.rxValid = true → selOfPins s.cfg.cfgInvert e.cfgPin = sel) →
    ∃ t, runEdges s es = .next t ∧
      portStream i t.out = portStream i s.out ++
        (((bytesFed es).zip (routesFrom s.rs (bytesFed es))).filter
          fun p => decide (p.2 = .bcast ∨ p.2 = .ch (lut sel i))).map Prod.fst

/-- The latch and the echoed bytes do not depend on the selector: two runs whose resets and bytes are the same, whatever
the switches, their parameters, latched selectors and enables, agree on both (R24). -/
def Obligations.LatchAndBytesIgnoreTheSelector : Prop :=
  ∀ (s1 s2 : State) (es1 es2 : List Edge),
    s1.rs = s2.rs → s1.out.map Emit.byte = s2.out.map Emit.byte → s1.n = s2.n →
    es1.map (fun e => (e.rst, e.rxValid, e.rxByte)) = es2.map (fun e => (e.rst, e.rxValid, e.rxByte)) →
    ∃ t1 t2, runEdges s1 es1 = .next t1 ∧ runEdges s2 es2 = .next t2 ∧
      t1.rs = t2.rs ∧ t1.out.map Emit.byte = t2.out.map Emit.byte ∧ t1.n = t2.n

/-- From reset, with any parameters, every byte is broadcast and the latch stays BROADCAST as long as no CHAN byte
comes, whatever SYSCOM, SYSRT and DATA bytes do (R85; spec/90_conflicts.md C9). -/
def Obligations.EverythingIsBroadcastUntilAChanByte : Prop :=
  ∀ (p : Config.Params) (es : List Edge), NoReset es →
    (∀ e ∈ es, e.rxValid = true → classOf e.rxByte ≠ .chan) →
    (State.resetWith p).rs = .bcast ∧
    ∃ t, runEdges (State.resetWith p) es = .next t ∧ t.rs = .bcast ∧
      t.out = (bytesFed es).map (fun b => ⟨0b1111#4, b⟩)

/-- A window miss lasts: while only DATA bytes come and no selector brings the latched channel in, every byte goes to no
port, is emitted, and the latch keeps the channel (R164, R167). -/
def Obligations.AWindowMissLasts : Prop :=
  ∀ (s : State) (es : List Edge) (c : Chan), s.rs = .ch c → NoReset es →
    (∀ e ∈ es, e.rxValid = true →
      classOf e.rxByte = .data ∧ selOfPins s.cfg.cfgInvert e.cfgPin ≠ c.extractLsb' 2 2) →
    ∃ t, runEdges s es = .next t ∧ t.rs = .ch c ∧
      t.out = s.out ++ (bytesFed es).map (fun b => ⟨0b0000#4, b⟩)

/-- Realtime bytes are transparent: turning every SYSRT byte of a run into silence changes neither the latch nor any
other byte's pair (R61, R83, R133, R136). -/
def Obligations.RealtimeBytesAreTransparent : Prop :=
  ∀ (s : State) (es : List Edge), NoReset es →
    ∃ t u, runEdges s es = .next t ∧
      runEdges s (es.map fun e => if classOf e.rxByte = .sysrt then { e with rxValid := false } else e) = .next u ∧
      u.rs = t.rs ∧
      u.out = s.out ++ (t.out.drop s.out.length).filter (fun x => decide (classOf x.byte ≠ .sysrt))

/-! Gates -/

/-- The next-state logic of the latch computes CLASSIFY on the route's bit patterns, with a canonical route bus (R93; the
patterns are the spec's own decision D1). -/
def Obligations.GateLatchComputesClassify : Prop :=
  ∀ (b : Byte) (r : Route),
    gateLatch b (routeBits r) = (routeBits (classify b r).1, routeBits (classify b r).2)

/-- The gate-level core, from the registers that hold an abstract state, goes through exactly the registers that hold the
abstract machine's states and emits the same trace, for every run (R78, R93, R104, R112; the patterns and buses are the
spec's own decisions D1, D24). -/
def Obligations.GateLevelCoreSimulatesTheAbstractOne : Prop :=
  ∀ (a : Arch) (xs : List AbsStep), a.toGates.run xs = ((a.run xs).1.toGates, (a.run xs).2)
end

