-- ==== Sys2Proof/Laws/State.lean ====
section
/-! SUPPORT. What each update of the state does to each field, so that no proof unfolds a record update. -/

namespace Sys2Proof.Machine

@[simp] theorem State.resolve_cfg (s : State) : s.resolve.cfg = s.cfg := rfl
@[simp] theorem State.resolve_cfgPin (s : State) : s.resolve.cfgPin = s.cfgPin := rfl
@[simp] theorem State.resolve_rs (s : State) : s.resolve.rs = s.rs := rfl
@[simp] theorem State.resolve_wsel (s : State) : s.resolve.wsel = s.sel := rfl
@[simp] theorem State.resolve_oe (s : State) : s.resolve.oe = s.oe := rfl
@[simp] theorem State.resolve_n (s : State) : s.resolve.n = s.n := rfl
@[simp] theorem State.resolve_txb (s : State) : s.resolve.txb = s.txb := rfl
@[simp] theorem State.resolve_txp (s : State) : s.resolve.txp = s.txp := rfl
@[simp] theorem State.resolve_txValid (s : State) : s.resolve.txValid = s.txValid := rfl
@[simp] theorem State.resolve_inputs (s : State) : s.resolve.inputs = s.inputs := rfl
@[simp] theorem State.resolve_out (s : State) : s.resolve.out = s.out := rfl
@[simp] theorem State.resolve_tx (s : State) : s.resolve.tx = s.tx := rfl
@[simp] theorem State.resolve_freeIdx (s : State) : s.resolve.freeIdx = s.freeIdx := rfl

@[simp] theorem State.setRs_cfg (s : State) (r : Route) : (s.setRs r).cfg = s.cfg := rfl
@[simp] theorem State.setRs_cfgPin (s : State) (r : Route) : (s.setRs r).cfgPin = s.cfgPin := rfl
@[simp] theorem State.setRs_rs (s : State) (r : Route) : (s.setRs r).rs = r := rfl
@[simp] theorem State.setRs_wsel (s : State) (r : Route) : (s.setRs r).wsel = s.wsel := rfl
@[simp] theorem State.setRs_oe (s : State) (r : Route) : (s.setRs r).oe = s.oe := rfl
@[simp] theorem State.setRs_n (s : State) (r : Route) : (s.setRs r).n = s.n := rfl
@[simp] theorem State.setRs_txb (s : State) (r : Route) : (s.setRs r).txb = s.txb := rfl
@[simp] theorem State.setRs_txp (s : State) (r : Route) : (s.setRs r).txp = s.txp := rfl
@[simp] theorem State.setRs_txValid (s : State) (r : Route) : (s.setRs r).txValid = s.txValid := rfl
@[simp] theorem State.setRs_inputs (s : State) (r : Route) : (s.setRs r).inputs = s.inputs := rfl
@[simp] theorem State.setRs_out (s : State) (r : Route) : (s.setRs r).out = s.out := rfl
@[simp] theorem State.setRs_tx (s : State) (r : Route) : (s.setRs r).tx = s.tx := rfl
@[simp] theorem State.setRs_freeIdx (s : State) (r : Route) : (s.setRs r).freeIdx = s.freeIdx := rfl

@[simp] theorem State.drive_cfg (s : State) (e : En) : (s.drive e).cfg = s.cfg := rfl
@[simp] theorem State.drive_cfgPin (s : State) (e : En) : (s.drive e).cfgPin = s.cfgPin := rfl
@[simp] theorem State.drive_rs (s : State) (e : En) : (s.drive e).rs = s.rs := rfl
@[simp] theorem State.drive_wsel (s : State) (e : En) : (s.drive e).wsel = s.wsel := rfl
@[simp] theorem State.drive_oe (s : State) (e : En) : (s.drive e).oe = e := rfl
@[simp] theorem State.drive_n (s : State) (e : En) : (s.drive e).n = s.n := rfl
@[simp] theorem State.drive_txb (s : State) (e : En) : (s.drive e).txb = s.txb := rfl
@[simp] theorem State.drive_txp (s : State) (e : En) : (s.drive e).txp = s.txp := rfl
@[simp] theorem State.drive_txValid (s : State) (e : En) : (s.drive e).txValid = s.txValid := rfl
@[simp] theorem State.drive_inputs (s : State) (e : En) : (s.drive e).inputs = s.inputs := rfl
@[simp] theorem State.drive_out (s : State) (e : En) : (s.drive e).out = s.out := rfl
@[simp] theorem State.drive_tx (s : State) (e : En) : (s.drive e).tx = s.tx := rfl
@[simp] theorem State.drive_freeIdx (s : State) (e : En) : (s.drive e).freeIdx = s.freeIdx := rfl

@[simp] theorem State.txWrite_cfg (s : State) (b : Byte) : (s.txWrite b).cfg = s.cfg := rfl
@[simp] theorem State.txWrite_cfgPin (s : State) (b : Byte) : (s.txWrite b).cfgPin = s.cfgPin := rfl
@[simp] theorem State.txWrite_rs (s : State) (b : Byte) : (s.txWrite b).rs = s.rs := rfl
@[simp] theorem State.txWrite_wsel (s : State) (b : Byte) : (s.txWrite b).wsel = s.wsel := rfl
@[simp] theorem State.txWrite_oe (s : State) (b : Byte) : (s.txWrite b).oe = s.oe := rfl
@[simp] theorem State.txWrite_n (s : State) (b : Byte) : (s.txWrite b).n = s.n := rfl
@[simp] theorem State.txWrite_txb (s : State) (b : Byte) : (s.txWrite b).txb = b := rfl
@[simp] theorem State.txWrite_txp (s : State) (b : Byte) : (s.txWrite b).txp = s.cfg.settleCycles := rfl
@[simp] theorem State.txWrite_txValid (s : State) (b : Byte) : (s.txWrite b).txValid = false := rfl
@[simp] theorem State.txWrite_inputs (s : State) (b : Byte) : (s.txWrite b).inputs = s.inputs := rfl
@[simp] theorem State.txWrite_out (s : State) (b : Byte) : (s.txWrite b).out = s.out ++ [⟨s.oe, b⟩] := rfl
@[simp] theorem State.txWrite_tx (s : State) (b : Byte) : (s.txWrite b).tx = s.tx := rfl
@[simp] theorem State.txWrite_freeIdx (s : State) (b : Byte) : (s.txWrite b).freeIdx = s.freeIdx := rfl

@[simp] theorem State.advance_cfg (s : State) : s.advance.cfg = s.cfg := rfl
@[simp] theorem State.advance_cfgPin (s : State) : s.advance.cfgPin = s.cfgPin := rfl
@[simp] theorem State.advance_rs (s : State) : s.advance.rs = s.rs := rfl
@[simp] theorem State.advance_wsel (s : State) : s.advance.wsel = s.wsel := rfl
@[simp] theorem State.advance_oe (s : State) : s.advance.oe = s.oe := rfl
@[simp] theorem State.advance_n (s : State) : s.advance.n = s.n + 1 := rfl
@[simp] theorem State.advance_txb (s : State) : s.advance.txb = s.txb := rfl
@[simp] theorem State.advance_txp (s : State) : s.advance.txp = s.txp := rfl
@[simp] theorem State.advance_txValid (s : State) : s.advance.txValid = s.txValid := rfl
@[simp] theorem State.advance_inputs (s : State) : s.advance.inputs = s.inputs := rfl
@[simp] theorem State.advance_out (s : State) : s.advance.out = s.out := rfl
@[simp] theorem State.advance_tx (s : State) : s.advance.tx = s.tx := rfl
@[simp] theorem State.advance_freeIdx (s : State) : s.advance.freeIdx = s.freeIdx := rfl

@[simp] theorem State.txTick_cfg (s : State) : s.txTick.cfg = s.cfg := rfl
@[simp] theorem State.txTick_cfgPin (s : State) : s.txTick.cfgPin = s.cfgPin := rfl
@[simp] theorem State.txTick_rs (s : State) : s.txTick.rs = s.rs := rfl
@[simp] theorem State.txTick_wsel (s : State) : s.txTick.wsel = s.wsel := rfl
@[simp] theorem State.txTick_oe (s : State) : s.txTick.oe = s.oe := rfl
@[simp] theorem State.txTick_n (s : State) : s.txTick.n = s.n := rfl
@[simp] theorem State.txTick_txb (s : State) : s.txTick.txb = s.txb := rfl
@[simp] theorem State.txTick_txp (s : State) : s.txTick.txp = s.txp - 1 := rfl
@[simp] theorem State.txTick_txValid (s : State) : s.txTick.txValid = (s.txp == 1) := rfl
@[simp] theorem State.txTick_inputs (s : State) : s.txTick.inputs = s.inputs := rfl
@[simp] theorem State.txTick_out (s : State) : s.txTick.out = s.out := rfl
@[simp] theorem State.txTick_tx (s : State) : s.txTick.tx = if s.txp = 1 then s.tx ++ [⟨s.oe, s.txb⟩] else s.tx := rfl
@[simp] theorem State.txTick_freeIdx (s : State) : s.txTick.freeIdx = s.freeIdx := rfl

@[simp] theorem State.sample_cfg (s : State) : s.sample.cfg = s.cfg := rfl
@[simp] theorem State.sample_cfgPin (s : State) : s.sample.cfgPin = s.nextEdge.cfgPin := rfl
@[simp] theorem State.sample_rs (s : State) : s.sample.rs = s.rs := rfl
@[simp] theorem State.sample_wsel (s : State) : s.sample.wsel = s.wsel := rfl
@[simp] theorem State.sample_oe (s : State) : s.sample.oe = s.oe := rfl
@[simp] theorem State.sample_n (s : State) : s.sample.n = s.n := rfl
@[simp] theorem State.sample_txb (s : State) : s.sample.txb = s.txb := rfl
@[simp] theorem State.sample_txp (s : State) : s.sample.txp = s.txp := rfl
@[simp] theorem State.sample_txValid (s : State) : s.sample.txValid = s.txValid := rfl
@[simp] theorem State.sample_inputs (s : State) : s.sample.inputs = s.inputs.tail := rfl
@[simp] theorem State.sample_out (s : State) : s.sample.out = s.out := rfl
@[simp] theorem State.sample_tx (s : State) : s.sample.tx = s.tx := rfl
@[simp] theorem State.sample_freeIdx (s : State) : s.sample.freeIdx = s.freeIdx := rfl

@[simp] theorem resetStep_cfg (s : State) : (resetStep s).cfg = s.cfg := rfl
@[simp] theorem resetStep_cfgPin (s : State) : (resetStep s).cfgPin = s.cfgPin := rfl
@[simp] theorem resetStep_rs (s : State) : (resetStep s).rs = .bcast := rfl
@[simp] theorem resetStep_wsel (s : State) : (resetStep s).wsel = s.cfg.resetWsel := rfl
@[simp] theorem resetStep_oe (s : State) : (resetStep s).oe = s.cfg.resetEn := rfl
@[simp] theorem resetStep_n (s : State) : (resetStep s).n = 0 := rfl
@[simp] theorem resetStep_txb (s : State) : (resetStep s).txb = Config.freeTxb s.freeIdx := rfl
@[simp] theorem resetStep_txp (s : State) : (resetStep s).txp = 0 := rfl
@[simp] theorem resetStep_txValid (s : State) : (resetStep s).txValid = false := rfl
@[simp] theorem resetStep_inputs (s : State) : (resetStep s).inputs = s.inputs := rfl
@[simp] theorem resetStep_out (s : State) : (resetStep s).out = [] := rfl
@[simp] theorem resetStep_tx (s : State) : (resetStep s).tx = [] := rfl
@[simp] theorem resetStep_freeIdx (s : State) : (resetStep s).freeIdx = s.freeIdx + 1 := rfl

end Sys2Proof.Machine
end

