-- ==== Sys2Proof/Laws/Ops.lean ====
section
/-! SUPPORT. What each shared operation does, said once: the provers cite these instead of unfolding. -/

namespace Sys2Proof.Machine

@[simp] theorem sel_resolve (s : State) : s.resolve.sel = s.sel := rfl

@[simp] theorem win_resolve (s : State) : s.resolve.win = windowOf s.sel := rfl

@[simp] theorem sel_sample (s : State) :
    s.sample.sel = selOfPins s.cfg.cfgInvert s.nextEdge.cfgPin := rfl

/-- Everything a BYTE step does (R110). -/
theorem byteStep_eq (r rs' : Route) (b : Byte) (s : State) :
    byteStep r rs' b s =
      { s with
        rs := rs', wsel := s.sel, oe := decidePorts r (windowOf s.sel), n := s.n + 1
        out := s.out ++ [⟨decidePorts r (windowOf s.sel), b⟩]
        txb := b, txp := s.cfg.settleCycles, txValid := false } := rfl

/-- Everything an IDLE step does at a clock edge (R116, R121). -/
theorem idleStep_eq (s : State) :
    idleStep s =
      { s with
        wsel := s.sel, txp := s.txp - 1, txValid := s.txp == 1
        tx := if s.txp = 1 then s.tx ++ [⟨s.oe, s.txb⟩] else s.tx } := rfl

/-- An instruction that answers a next state has taken one BYTE step, of its own byte; its route is the
new latch, or it is broadcast and the latch is unchanged (R84). -/
theorem exec_cases {i : Instr} {s t : State} (h : exec i s = .next t) :
    ∃ r rs', t = byteStep r rs' (encode i) s ∧ (r = rs' ∨ r = .bcast ∧ rs' = s.rs) := by
  cases i <;> simp only [exec, execData, execChan8, execChan9, execChanA, execChanB, execChanC, execChanD,
    execChanE, latchChannel, execSyscom, execSysrt, Host.Outcome.next.injEq] at h <;> subst h
  case sysrt => exact ⟨_, _, rfl, .inr ⟨rfl, rfl⟩⟩
  all_goals exact ⟨_, _, rfl, .inl rfl⟩

/-- A step that answers a next state is a reset, the execution of the byte presented, or an IDLE step (R127). -/
theorem step_cases {s t : State} (h : step s = .next t) :
    (s.nextEdge.rst = true ∧ t = resetStep s.sample) ∨
    (s.nextEdge.rst = false ∧ s.nextEdge.rxValid = true ∧
      exec (decodeByte s.nextEdge.rxByte) s.sample = .next t) ∨
    (s.nextEdge.rst = false ∧ s.nextEdge.rxValid = false ∧ t = idleStep s.sample) := by
  cases hr : s.nextEdge.rst
  · cases hv : s.nextEdge.rxValid <;> simp [step, clockEdge, hr, hv] at h
    · exact .inr (.inr ⟨rfl, rfl, h.symm⟩)
    · exact .inr (.inl ⟨rfl, rfl, h⟩)
  · simp [step, clockEdge, hr] at h
    exact .inl ⟨rfl, h.symm⟩

/-- The pins of the next edge when the environment supplies them (R119). -/
@[simp] theorem nextEdge_cons {s : State} {e : Edge} {es : List Edge} (h : s.inputs = e :: es) :
    s.nextEdge = e := by
  simp [State.nextEdge, h]

/-- Sampling an edge the environment supplies (R30, R121). -/
theorem sample_cons {s : State} {e : Edge} {es : List Edge} (h : s.inputs = e :: es) :
    s.sample = { s with inputs := es, cfgPin := e.cfgPin } := by
  simp [State.sample, nextEdge_cons h, h]

/-- A run whose first step answers a next state goes on from it. -/
theorem run_succ_of_next {M : Host.Core} {k : Nat} {s t : M.State} (h : M.step s = .next t) :
    M.run (k + 1) s = M.run k t := by
  rw [Host.Core.run, h]

/-- `stepN` is the host's run of the machine, wherever it answers a next state. -/
theorem run_of_stepN {k : Nat} {s t : State} (h : stepN k s = .next t) :
    Host.Core.run Sys2Proof.core k s = .next t := by
  induction k generalizing s with
  | zero => exact h
  | succ k ih =>
    rw [stepN] at h
    cases hs : step s with
    | next u =>
      rw [hs] at h
      exact (run_succ_of_next (M := Sys2Proof.core) hs).trans (ih h)
    | fault f => cases f
    | refused r => rw [hs] at h; cases h

/-- CLASSIFY returns the new latch as the route, or broadcast with the latch unchanged (R84). -/
theorem classify_cases (b : Byte) (rs : Route) :
    (classify b rs).1 = (classify b rs).2 ∨ (classify b rs).1 = .bcast ∧ (classify b rs).2 = rs := by
  unfold classify
  split
  · exact .inr ⟨rfl, rfl⟩
  · left
    split
    · rfl
    · split <;> rfl

/-- The pins when the environment supplies no further edge (entry 2). -/
theorem nextEdge_nil {s : State} (h : s.inputs = []) :
    s.nextEdge = { rst := false, rxValid := false, rxByte := 0#8, cfgPin := s.cfgPin } := by
  simp [State.nextEdge, h]

/-- Every step consumes exactly the first edge of the input list (R30). -/
theorem step_inputs {s t : State} (h : step s = .next t) : t.inputs = s.inputs.tail := by
  rcases step_cases h with ⟨_, rfl⟩ | ⟨_, _, h⟩ | ⟨_, _, rfl⟩
  · rfl
  · obtain ⟨r, rs', rfl, -⟩ := exec_cases h
    rfl
  · rfl

/-- A run over no edge stays where it is. -/
theorem runEdges_nil (s : State) : runEdges s [] = .next { s with inputs := [] } := rfl

/-- A run over `e :: es` is the step at `e`, then the run over `es`. -/
theorem runEdges_cons_of_step {s t : State} {e : Edge} {es : List Edge}
    (h : step { s with inputs := e :: es } = .next t) : runEdges s (e :: es) = runEdges t es := by
  have ht : { t with inputs := es } = t := by
    have := step_inputs h
    simp only [List.tail_cons] at this
    rw [← this]
  simp only [runEdges, List.length_cons, stepN, h, ht]

end Sys2Proof.Machine
end

