-- ==== Sys2Proof/Laws/PerInstr.lean ====
section
/-! SUPPORT. One lemma per constructor: the byte an instruction encodes to lies in the instruction's own row of the
opcode table and in its class (spec/30_encoding.md R51, R52, R66). -/

namespace Sys2Proof.Laws.EncodeRow

/-- The instruction is well formed, and its byte is selected by its row and has its class (R52, R66). -/
def Statement (i : Instr) : Prop :=
  i.wf = true ∧ i.row.selects (encode i) = true ∧ classOf (encode i) = i.cls

theorem data (d : BitVec 7) : Statement (.data d) := by
  revert d; unfold Statement; decide

theorem chan8 (n : Chan) : Statement (.chan8 n) := by
  revert n; unfold Statement; decide

theorem chan9 (n : Chan) : Statement (.chan9 n) := by
  revert n; unfold Statement; decide

theorem chanA (n : Chan) : Statement (.chanA n) := by
  revert n; unfold Statement; decide

theorem chanB (n : Chan) : Statement (.chanB n) := by
  revert n; unfold Statement; decide

theorem chanC (n : Chan) : Statement (.chanC n) := by
  revert n; unfold Statement; decide

theorem chanD (n : Chan) : Statement (.chanD n) := by
  revert n; unfold Statement; decide

theorem chanE (n : Chan) : Statement (.chanE n) := by
  revert n; unfold Statement; decide

theorem syscom (k : BitVec 3) : Statement (.syscom k) := by
  revert k; unfold Statement; decide

theorem sysrt (k : BitVec 3) : Statement (.sysrt k) := by
  revert k; unfold Statement; decide

end Sys2Proof.Laws.EncodeRow
end

