-- ==== Sys2Proof/Tests/Slice0.lean ====
section
/-! SUPPORT. Tests: the refusals of the well-formedness checks, bytes written out from the spec's bit patterns, one step
per row of spec/95_test_vectors.md sections 2.4 to 2.7, and for every statement with hypotheses a state and operands that
meet them. Expected values come from the spec's tables. -/

namespace Sys2Proof.Tests

open Sys2Proof.Machine

/-! Well-formedness refuses -/

theorem test_wf_refuses_zero_settle : ({ Config.Params.default with settleCycles := 0 }).wf = false := by decide
theorem test_wf_accepts_default : Config.Params.default.wf = true := by decide
theorem test_wf_refuses_repeated_entry : windowWf #v[4#4, 4#4, 5#4, 6#4] = false := by decide
theorem test_wf_refuses_gap : windowWf #v[4#4, 5#4, 6#4, 8#4] = false := by decide
theorem test_wf_accepts_window : windowWf #v[8#4, 9#4, 10#4, 11#4] = true := by decide
theorem test_wf_refuses_pattern_11 : routeBitsCanonical 0x11#5 = false := by decide
theorem test_wf_refuses_pattern_1F : routeBitsCanonical 0x1F#5 = false := by decide
theorem test_decode_refuses_no_byte : decode [] = .error .noByte := by rfl
theorem test_table_word_refuses_two_bytes : decodeTableWord 16 0x3C91 = none := by decide

/-! Decoding, every boundary byte of spec/95_test_vectors.md section 2.1, bit by bit -/

theorem test_decode_data_low : decodeByte 0b00000000#8 = .data 0#7 := by decide
theorem test_decode_data_high : decodeByte 0b01111111#8 = .data 127#7 := by decide
theorem test_decode_chan8_low : decodeByte 0b10000000#8 = .chan8 0#4 := by decide
theorem test_decode_chan8_high : decodeByte 0b10001111#8 = .chan8 15#4 := by decide
theorem test_decode_chan9 : decodeByte 0b10010000#8 = .chan9 0#4 := by decide
theorem test_decode_chanA : decodeByte 0b10101111#8 = .chanA 15#4 := by decide
theorem test_decode_chanB : decodeByte 0b10110000#8 = .chanB 0#4 := by decide
theorem test_decode_chanC : decodeByte 0b11000101#8 = .chanC 5#4 := by decide
theorem test_decode_chanD : decodeByte 0b11011111#8 = .chanD 15#4 := by decide
theorem test_decode_chanE_low : decodeByte 0b11100000#8 = .chanE 0#4 := by decide
theorem test_decode_chanE_high : decodeByte 0b11101111#8 = .chanE 15#4 := by decide
theorem test_decode_syscom_low : decodeByte 0b11110000#8 = .syscom 0#3 := by decide
theorem test_decode_syscom_high : decodeByte 0b11110111#8 = .syscom 7#3 := by decide
theorem test_decode_sysrt_low : decodeByte 0b11111000#8 = .sysrt 0#3 := by decide
theorem test_decode_sysrt_high : decodeByte 0b11111111#8 = .sysrt 7#3 := by decide
theorem test_encode_chan9_1 : encode (.chan9 1#4) = 0x91#8 := by decide

/-- The source's class counts (R53): 128, 112, 8 and 8 bytes. -/
theorem test_class_counts :
    (((List.range 256).map fun k => classOf (BitVec.ofNat 8 k)).count .data = 128) ∧
    (((List.range 256).map fun k => classOf (BitVec.ofNat 8 k)).count .chan = 112) ∧
    (((List.range 256).map fun k => classOf (BitVec.ofNat 8 k)).count .syscom = 8) ∧
    (((List.range 256).map fun k => classOf (BitVec.ofNat 8 k)).count .sysrt = 8) := by decide +kernel

/-! One step -/

/-- The state of a row of section 2.5: the latch and the logical selector, the pins inverted by default. -/
def at_ (rs : Route) (sel : Sel) : State := { State.reset with rs := rs, cfgPin := ~~~sel }

/-- The next state of an outcome, if there is one. -/
def nextOf (o : Host.Outcome State Fault Refusal) : Option State :=
  match o with
  | .next t => some t
  | .fault _ => none
  | .refused _ => none

/-- What a row of section 2.5 says of the state after: latch, selector, enables, pins, and the last pair. -/
def seen (t : State) : Route × Sel × En × BitVec 4 × Option Emit := (t.rs, t.wsel, t.oe, t.oeN, t.out.getLast?)

theorem test_data_running_status :
    (nextOf (exec (.data 0x3C#7) (at_ (.ch 1) 0))).map seen =
      some (.ch 1, 0, 0b0010#4, 0b1101#4, some ⟨0b0010#4, 0x3C#8⟩) := by decide
theorem test_data_selector_brings_channel_in :
    (nextOf (exec (.data 0x24#7) (at_ (.ch 9) 2))).map seen =
      some (.ch 9, 2, 0b0010#4, 0b1101#4, some ⟨0b0010#4, 0x24#8⟩) := by decide
theorem test_chan8_first_of_last_window :
    (nextOf (exec (.chan8 12#4) (at_ .bcast 3))).map seen =
      some (.ch 12, 3, 0b0001#4, 0b1110#4, some ⟨0b0001#4, 0x8C#8⟩) := by decide
theorem test_chan8_overrides :
    (nextOf (exec (.chan8 0#4) (at_ (.ch 15) 0))).map seen =
      some (.ch 0, 0, 0b0001#4, 0b1110#4, some ⟨0b0001#4, 0x80#8⟩) := by decide
theorem test_chan9_hit :
    (nextOf (exec (.chan9 6#4) (at_ .bcast 1))).map seen =
      some (.ch 6, 1, 0b0100#4, 0b1011#4, some ⟨0b0100#4, 0x96#8⟩) := by decide
theorem test_chan9_miss :
    (nextOf (exec (.chan9 9#4) (at_ .bcast 1))).map seen =
      some (.ch 9, 1, 0b0000#4, 0b1111#4, some ⟨0b0000#4, 0x99#8⟩) := by decide
theorem test_chanA_latches :
    (nextOf (exec (.chanA 3#4) (at_ .bcast 0))).map seen =
      some (.ch 3, 0, 0b1000#4, 0b0111#4, some ⟨0b1000#4, 0xA3#8⟩) := by decide
theorem test_chanB_latches :
    (nextOf (exec (.chanB 7#4) (at_ .bcast 1))).map seen =
      some (.ch 7, 1, 0b1000#4, 0b0111#4, some ⟨0b1000#4, 0xB7#8⟩) := by decide
theorem test_chanC_hit :
    (nextOf (exec (.chanC 15#4) (at_ (.ch 0) 3))).map seen =
      some (.ch 15, 3, 0b1000#4, 0b0111#4, some ⟨0b1000#4, 0xCF#8⟩) := by decide
theorem test_chanC_miss :
    (nextOf (exec (.chanC 15#4) (at_ (.ch 0) 2))).map seen =
      some (.ch 15, 2, 0b0000#4, 0b1111#4, some ⟨0b0000#4, 0xCF#8⟩) := by decide
theorem test_chanD_miss_below :
    (nextOf (exec (.chanD 3#4) (at_ .bcast 1))).map seen =
      some (.ch 3, 1, 0b0000#4, 0b1111#4, some ⟨0b0000#4, 0xD3#8⟩) := by decide
theorem test_chanE_relatches :
    (nextOf (exec (.chanE 7#4) (at_ (.ch 7) 1))).map seen =
      some (.ch 7, 1, 0b1000#4, 0b0111#4, some ⟨0b1000#4, 0xE7#8⟩) := by decide
theorem test_syscom_cancels :
    (nextOf (exec (.syscom 2#3) (at_ (.ch 6) 1))).map seen =
      some (.bcast, 1, 0b1111#4, 0b0000#4, some ⟨0b1111#4, 0xF2#8⟩) := by decide
theorem test_sysrt_keeps_latch_during_miss :
    (nextOf (exec (.sysrt 0#3) (at_ (.ch 9) 1))).map seen =
      some (.ch 9, 1, 0b1111#4, 0b0000#4, some ⟨0b1111#4, 0xF8#8⟩) := by decide
theorem test_sysrt_system_reset_is_no_reset :
    (nextOf (exec (.sysrt 7#3) (at_ (.ch 3) 0))).map seen =
      some (.ch 3, 0, 0b1111#4, 0b0000#4, some ⟨0b1111#4, 0xFF#8⟩) := by decide

/-- Section 2.3, with `CFG_INVERT` 1 and 0. -/
theorem test_pins_second_input_active : selOfPins true 0b10#2 = 1#2 ∧ selOfPins false 0b10#2 = 2#2 := by decide
theorem test_window_two : windowOf 2#2 = #v[8#4, 9#4, 10#4, 11#4] := by decide
/-- Section 2.4, the source's S7 and S8. -/
theorem test_decide_s7 : decidePorts (.ch 6) #v[4#4, 5#4, 6#4, 7#4] = 0b0100#4 := by decide
theorem test_decide_s8 : decidePorts (.ch 9) #v[4#4, 5#4, 6#4, 7#4] = 0b0000#4 := by decide

/-- An edge that presents a byte, and one that does not, with the selector `sel` on inverted pins. -/
def byteEdge (b : Byte) (sel : Sel) : Edge := { rst := false, rxValid := true, rxByte := b, cfgPin := ~~~sel }
def quietEdge (sel : Sel) : Edge := { rst := false, rxValid := false, rxByte := 0xFF#8, cfgPin := ~~~sel }
def rstEdge : Edge := { rst := true, rxValid := true, rxByte := 0x91#8, cfgPin := 0b00#2 }

/-- Section 2.6, first row: the latched selector moves, the pins do not. -/
theorem test_idle_moves_only_wsel :
    (nextOf (step { at_ (.ch 9) 1 with wsel := 1, oe := 0#4, inputs := [quietEdge 2] })).map seen =
      some (.ch 9, 2, 0b0000#4, 0b1111#4, none) := by decide
/-- Section 2.7: reset wins over a byte at the same edge. -/
theorem test_reset_edge :
    (nextOf (step { at_ (.ch 9) 2 with wsel := 2, oe := 2#4, n := 5, inputs := [rstEdge] })).map
      (fun t => (t.rs, t.wsel, t.oeN, t.n, t.out)) = some (.bcast, 0, 0b0000#4, 0, []) := by decide
/-- Section 2.7: the first byte after reset uses the real selector. -/
theorem test_first_byte_after_reset :
    (nextOf (step { State.reset with inputs := [byteEdge 0x99 2] })).map seen =
      some (.ch 9, 2, 0b0010#4, 0b1101#4, some ⟨0b0010#4, 0x99#8⟩) := by decide
/-- The pin-level trace of section 3, edges 3 to 5: accepted, echoed one edge later, for one cycle. -/
theorem test_accept_loads_counter :
    (nextOf (step { State.reset with inputs := [byteEdge 0x91 0] })).map
      (fun t => (t.oeN, t.txp, t.txValid, t.txByte, t.busy)) = some (0b1101#4, 1, false, 0x91#8, true) := by decide
theorem test_echo_pulses :
    (nextOf (step { State.reset with txb := 0x91, txp := 1, oe := 0b0010#4 })).map
      (fun t => (t.oeN, t.txp, t.txValid, t.txByte, t.tx)) =
      some (0b1101#4, 0, true, 0x91#8, [⟨0b0010#4, 0x91#8⟩]) := by decide
theorem test_echo_ends :
    (nextOf (step { State.reset with txb := 0x91, txp := 0, txValid := true })).map
      (fun t => (t.txValid, t.tx, t.busy)) = some (false, [], false) := by decide
theorem test_placed_word_runs :
    (nextOf (step (State.reset.withFetchWord 8 0x91))).map seen =
      some (.ch 1, 0, 0b0010#4, 0b1101#4, some ⟨0b0010#4, 0x91#8⟩) := by decide

/-! Witnesses: for every statement with hypotheses, values that meet them together -/

/-- ClassesAreTheFourRanges: the first and the last byte of each range. -/
theorem witness_ClassesAreTheFourRanges :
    (0xF8#8 ≤ (0xF8#8 : Byte) ∧ 0xF8#8 ≤ (0xFF#8 : Byte)) ∧
    (0xF0#8 ≤ (0xF0#8 : Byte) ∧ (0xF0#8 : Byte) ≤ 0xF7#8 ∧ 0xF0#8 ≤ (0xF7#8 : Byte) ∧ (0xF7#8 : Byte) ≤ 0xF7#8) ∧
    (0x80#8 ≤ (0x80#8 : Byte) ∧ (0x80#8 : Byte) ≤ 0xEF#8 ∧ 0x80#8 ≤ (0xEF#8 : Byte) ∧ (0xEF#8 : Byte) ≤ 0xEF#8) ∧
    ((0x00#8 : Byte) ≤ 0x7F#8 ∧ (0x7F#8 : Byte) ≤ 0x7F#8) ∧
    (classOf 0xF7#8 ≠ .sysrt ∧ classOf 0xEF#8 ≠ .sysrt ∧ classOf 0x7F#8 ≠ .sysrt) := by decide
/-- DecideEnablesExactlyTheMatchingPort: a window of consecutive channels; a channel in no entry, just below and
just above. -/
theorem witness_DecideEnablesExactlyTheMatchingPort :
    windowWf #v[4#4, 5#4, 6#4, 7#4] = true ∧ windowWf #v[12#4, 13#4, 14#4, 15#4] = true ∧
    (∀ i : Port, (windowOf 1#2)[i] ≠ 3#4) ∧ (∀ i : Port, (windowOf 1#2)[i] ≠ 8#4) := by decide
/-- RoutePatternsAreCanonical: canonical patterns at both ends, and patterns no route has at both ends. -/
theorem witness_RoutePatternsAreCanonical :
    routeBitsCanonical 0x00#5 = true ∧ routeBitsCanonical 0x0F#5 = true ∧ routeBitsCanonical 0x10#5 = true ∧
    0x11#5 ≤ (0x11#5 : BitVec 5) ∧ 0x11#5 ≤ (0x1F#5 : BitVec 5) := by decide
/-- MissDisablesAllPorts: both clauses, a channel just above and just below the window. -/
theorem witness_MissDisablesAllPorts :
    (BitVec.extractLsb' 2 2 8#4 ≠ (at_ .bcast 1).sel ∧ classOf 0x98#8 = .chan ∧ BitVec.extractLsb' 0 4 0x98#8 = 8#4) ∧
    (BitVec.extractLsb' 2 2 3#4 ≠ (at_ (.ch 3) 1).sel ∧ (at_ (.ch 3) 1).rs = .ch 3 ∧ classOf 0x24#8 = .data) := by decide
theorem witness_EnablesAreOneOfSixPatterns :
    ∃ t, exec (.chan9 6#4) (at_ .bcast 1) = .next t := ⟨_, rfl⟩
/-- StepRunsTheDecodedByte and ByteStepResolvesClassifiesDecidesDrivesEmits. -/
theorem witness_step_with_a_byte :
    ({ State.reset with inputs := [byteEdge 0x91 2] } : State).inputs = byteEdge 0x91 2 :: [] ∧
    (byteEdge 0x91 2).rst = false ∧ (byteEdge 0x91 2).rxValid = true := by decide
theorem witness_EdgeWithoutByteIsIdle :
    ({ State.reset with txp := 1, inputs := [quietEdge 2] } : State).inputs = quietEdge 2 :: [] ∧
    (quietEdge 2).rst = false ∧ (quietEdge 2).rxValid = false := by decide
theorem witness_RestingPinsGiveIdleSteps : State.reset.inputs = [] := by decide
theorem witness_ResetEdgeRestoresTheResetState :
    ({ at_ (.ch 9) 2 with inputs := [rstEdge] } : State).inputs = rstEdge :: [] ∧ rstEdge.rst = true := by decide
/-- StepLatchesThePresentSelector, and StepsKeepTheParameters with its second clause. -/
theorem witness_step_without_reset :
    (∃ t, step { State.reset with inputs := [byteEdge 0x91 2] } = .next t) ∧
    ({ State.reset with inputs := [byteEdge 0x91 2] } : State).nextEdge.rst = false := ⟨⟨_, rfl⟩, by decide⟩
theorem witness_EnablesMoveOnlyWhenAByteIsAccepted :
    (∃ t, step { at_ (.ch 1) 0 with inputs := [quietEdge 3] } = .next t) ∧
    ({ at_ (.ch 1) 0 with inputs := [quietEdge 3] } : State).nextEdge.rst = false ∧
    ({ at_ (.ch 1) 0 with inputs := [quietEdge 3] } : State).nextEdge.rxValid = false := ⟨⟨_, rfl⟩, by decide, by decide⟩
theorem witness_ResetLosesTheRunningStatus :
    ({ at_ (.ch 9) 2 with inputs := [rstEdge, byteEdge 0x24 2] } : State).inputs = rstEdge :: byteEdge 0x24 2 :: [] ∧
    rstEdge.rst = true ∧ (byteEdge 0x24 2).rst = false ∧ (byteEdge 0x24 2).rxValid = true ∧
    classOf (byteEdge 0x24 2).rxByte = .data := by decide
/-- InvariantHoldsAtReset: parameters other than the defaults, at the smallest settle time. -/
theorem witness_InvariantHoldsAtReset :
    ({ cfgInvert := false, resetEn := 0#4, resetWsel := 3#2, settleCycles := 1 } : Config.Params).wf = true := by decide
/-- EveryStepKeepsTheInvariant: a state with a byte waiting, whose step echoes it. -/
theorem witness_EveryStepKeepsTheInvariant :
    ∃ s t : State, Inv s ∧ step s = .next t ∧ s.txp = 1 ∧ t.txValid = true := by
  refine ⟨{ State.reset with
      rs := .ch 1, oe := 0b0010#4, n := 1, txb := 0x91#8, txp := 1, out := [⟨0b0010#4, 0x91#8⟩] },
    _, ?_, rfl, rfl, rfl⟩
  refine ⟨rfl, ?_, ?_, rfl, rfl, ?_, ?_, ?_, ?_, ?_⟩ <;> simp [State.reset, State.resetWith, Config.Params.default, sixPatterns]
/-- ClockedMachineRefinesTheAbstractOne, OutputStreamCopiesTheInputStream and RealtimeBytesAreTransparent. -/
theorem witness_runs_without_reset : NoReset [byteEdge 0x96 1, quietEdge 1, byteEdge 0xF8 1, byteEdge 0x3C 1] := by decide
theorem witness_SpacedBytesAreEchoedWithTheirEnables :
    State.reset.cfg.wf = true ∧ NoReset [byteEdge 0x91 0, quietEdge 0, byteEdge 0x3C 0, quietEdge 0] ∧
    spaced State.reset.cfg.settleCycles State.reset.txp [byteEdge 0x91 0, quietEdge 0, byteEdge 0x3C 0, quietEdge 0] = true := by
  decide
/-- EchoComesSettleCyclesAfterTheDecision: exactly `SETTLE_CYCLES` quiet edges, and one fewer. -/
theorem witness_EchoComesSettleCyclesAfterTheDecision :
    State.reset.cfg.wf = true ∧ State.reset.txp = 0 ∧ (byteEdge 0x91 0).rst = false ∧ (byteEdge 0x91 0).rxValid = true ∧
    (∀ q ∈ [quietEdge 0], q.rst = false ∧ q.rxValid = false) ∧ [quietEdge 0].length = State.reset.cfg.settleCycles ∧
    (∀ q ∈ ([] : List Edge), q.rst = false ∧ q.rxValid = false) := by decide
/-- LatchIsDecidedByTheLastLatchingByte and TraceClosedForm. -/
theorem witness_closed_forms :
    State.reset.rs = .bcast ∧ NoReset [byteEdge 0x91 0, byteEdge 0x3C 2] ∧
    (fed State.reset.cfg.cfgInvert [byteEdge 0x91 0, byteEdge 0x3C 2])[1]? = some (0x3C#8, 2#2) := by decide
theorem witness_PortReceivesBroadcastsAndItsChannel :
    NoReset [byteEdge 0x96 1, quietEdge 2, byteEdge 0xF8 1] ∧
    ∀ e ∈ [byteEdge 0x96 1, quietEdge 2, byteEdge 0xF8 1],
      e.rxValid = true → selOfPins State.reset.cfg.cfgInvert e.cfgPin = 1#2 := by decide
/-- LatchAndBytesIgnoreTheSelector: different switches, latched selectors, enables and parameters. -/
theorem witness_LatchAndBytesIgnoreTheSelector :
    State.reset.rs = (State.resetWith ⟨false, 0#4, 3#2, 5⟩).rs ∧
    State.reset.out.map Emit.byte = (State.resetWith ⟨false, 0#4, 3#2, 5⟩).out.map Emit.byte ∧
    State.reset.n = (State.resetWith ⟨false, 0#4, 3#2, 5⟩).n ∧
    [byteEdge 0x91 0, quietEdge 1].map (fun e => (e.rst, e.rxValid, e.rxByte)) =
      [byteEdge 0x91 3, quietEdge 2].map (fun e => (e.rst, e.rxValid, e.rxByte)) := by decide
/-- EverythingIsBroadcastUntilAChanByte: data, common and realtime bytes. -/
theorem witness_EverythingIsBroadcastUntilAChanByte :
    NoReset [byteEdge 0x40 3, byteEdge 0xF7 3, byteEdge 0xFE 3] ∧
    ∀ e ∈ [byteEdge 0x40 3, byteEdge 0xF7 3, byteEdge 0xFE 3], e.rxValid = true → classOf e.rxByte ≠ .chan := by decide
theorem witness_AWindowMissLasts :
    (at_ (.ch 9) 1).rs = .ch 9#4 ∧ NoReset [byteEdge 0x24 1, byteEdge 0x7F 3] ∧
    ∀ e ∈ [byteEdge 0x24 1, byteEdge 0x7F 3], e.rxValid = true →
      classOf e.rxByte = .data ∧ selOfPins (at_ (.ch 9) 1).cfg.cfgInvert e.cfgPin ≠ BitVec.extractLsb' 2 2 9#4 := by decide

end Sys2Proof.Tests
end

/-! PROOFS. The instructions by CLASSIFY: what one instruction, one presented byte and one step do, said as equations
(spec/41_midi_state_machine.md R84, spec/43_byte_step.md R110, R127). -/

namespace Sys2Proof.Machine

/-! CLASSIFY on the byte of each instruction (R80 to R84) -/

theorem classify_encode_data (d : BitVec 7) (rs : Route) : classify (encode (.data d)) rs = (rs, rs) := by
  have below_80 : ∀ d : BitVec 7, ¬ 0xF8#8 ≤ encode (.data d) ∧ ¬ 0xF0#8 ≤ encode (.data d) ∧
      ¬ 0x80#8 ≤ encode (.data d) := by decide
  obtain ⟨hF8, hF0, h80⟩ := below_80 d
  simp [classify, hF8, hF0, h80]

/-- The seven CHAN rows at once: any high nibble from 8 to E, whose value has no influence (R55, R81). -/
theorem classify_chan (hi n : BitVec 4) (rs : Route) (h8 : 0x8#4 ≤ hi) (hE : hi ≤ 0xE#4) :
    classify (hi ++ n) rs = (.ch n, .ch n) := by
  have in_80_EF : ∀ hi n : BitVec 4, 0x8#4 ≤ hi → hi ≤ 0xE#4 →
      ¬ 0xF8#8 ≤ hi ++ n ∧ ¬ 0xF0#8 ≤ hi ++ n ∧ 0x80#8 ≤ hi ++ n ∧ (hi ++ n).extractLsb' 0 4 = n := by decide
  obtain ⟨hF8, hF0, h80, hn⟩ := in_80_EF hi n h8 hE
  simp [classify, hF8, hF0, h80, hn]

theorem classify_encode_syscom (k : BitVec 3) (rs : Route) :
    classify (encode (.syscom k)) rs = (.bcast, .bcast) := by
  have in_F0_F7 : ∀ k : BitVec 3, ¬ 0xF8#8 ≤ encode (.syscom k) ∧ 0xF0#8 ≤ encode (.syscom k) := by decide
  obtain ⟨hF8, hF0⟩ := in_F0_F7 k
  simp [classify, hF8, hF0]

theorem classify_encode_sysrt (k : BitVec 3) (rs : Route) :
    classify (encode (.sysrt k)) rs = (.bcast, rs) := by
  have from_F8 : ∀ k : BitVec 3, 0xF8#8 ≤ encode (.sysrt k) := by decide
  simp [classify, from_F8 k]

/-! The instruction, the byte and the step as equations -/

/-- A CHAN row's meaning, once its byte is known to be a nibble from 8 to E above the channel (R81). -/
theorem latchChannel_eq (hi n : BitVec 4) (s : State) (h8 : 0x8#4 ≤ hi) (hE : hi ≤ 0xE#4) :
    latchChannel n (hi ++ n) s =
      .next (byteStep (classify (hi ++ n) s.rs).1 (classify (hi ++ n) s.rs).2 (hi ++ n) s) := by
  rw [classify_chan hi n s.rs h8 hE, latchChannel]

/-- Every instruction is the BYTE step of its own byte, with the route and the latch CLASSIFY gives (R84, R110). -/
theorem exec_eq_byteStep (i : Instr) (s : State) :
    exec i s =
      .next (byteStep (classify (encode i) s.rs).1 (classify (encode i) s.rs).2 (encode i) s) := by
  cases i with
  | data d => rw [classify_encode_data]; rfl
  | chan8 n => exact latchChannel_eq 0x8 n s (by decide) (by decide)
  | chan9 n => exact latchChannel_eq 0x9 n s (by decide) (by decide)
  | chanA n => exact latchChannel_eq 0xA n s (by decide) (by decide)
  | chanB n => exact latchChannel_eq 0xB n s (by decide) (by decide)
  | chanC n => exact latchChannel_eq 0xC n s (by decide) (by decide)
  | chanD n => exact latchChannel_eq 0xD n s (by decide) (by decide)
  | chanE n => exact latchChannel_eq 0xE n s (by decide) (by decide)
  | syscom k => rw [classify_encode_syscom]; rfl
  | sysrt k => rw [classify_encode_sysrt]; rfl

/-- Every byte is the encoding of the instruction it decodes to (R65). -/
@[simp] theorem encode_decodeByte (b : Byte) : encode (decodeByte b) = b := by
  revert b; decide

/-- A byte presented is the BYTE step of that byte, with the route and the latch CLASSIFY gives (R110, R121). -/
theorem exec_decodeByte (b : Byte) (s : State) :
    exec (decodeByte b) s = .next (byteStep (classify b s.rs).1 (classify b s.rs).2 b s) := by
  simpa only [encode_decodeByte] using exec_eq_byteStep (decodeByte b) s

/-- Every edge, from every state, answers a next state (R130). -/
theorem step_total (s : State) : ∃ t, step s = .next t := by
  unfold step clockEdge
  split
  · exact ⟨_, rfl⟩
  · split
    · exact ⟨_, exec_decodeByte _ _⟩
    · exact ⟨_, rfl⟩

/-! `WSEL` after a step -/

@[simp] theorem byteStep_wsel (r rs' : Route) (b : Byte) (s : State) : (byteStep r rs' b s).wsel = s.sel := rfl

@[simp] theorem idleStep_wsel (s : State) : (idleStep s).wsel = s.sel := rfl

/-- Settles O28: a BYTE step and an IDLE step both begin with RESOLVE, on the pins sampled at the edge. -/
theorem stepLatchesThePresentSelector : Obligations.StepLatchesThePresentSelector := by
  intro s t hstep hrst
  rcases step_cases hstep with ⟨hreset, -⟩ | ⟨-, -, hexec⟩ | ⟨-, -, rfl⟩
  · exact absurd hreset (by simp [hrst])
  · obtain ⟨r, rs', rfl, -⟩ := exec_cases hexec
    rw [byteStep_wsel, sel_sample]
  · rw [idleStep_wsel, sel_sample]

end Sys2Proof.Machine

/-! PROOFS. Noninterference of the selector (spec/10_state.md R24): the latch, the echoed bytes and the stream index
are a fold of the resets and bytes alone. -/

namespace Sys2Proof.Machine

/-- The part of the state that R24 says no selector reaches. -/
structure LatchView where
  rs : Route
  bytes : List Byte
  n : Nat

/-- That part of a state of the clocked machine. -/
def State.latchView (s : State) : LatchView := { rs := s.rs, bytes := s.out.map Emit.byte, n := s.n }

/-- The pins of an edge without the switches: `rst`, `rx_valid` and `rx_byte`. -/
def Edge.stream (e : Edge) : Bool × Bool × Byte := (e.rst, e.rxValid, e.rxByte)

/-- What those pins do to that part: it reads neither the switches nor any other part of the state. -/
def LatchView.step (v : LatchView) : Bool × Bool × Byte → LatchView
  | (true, _, _) => { rs := .bcast, bytes := [], n := 0 }
  | (false, true, b) => { rs := (classify b v.rs).2, bytes := v.bytes ++ [b], n := v.n + 1 }
  | (false, false, _) => v

@[simp] theorem latchView_withInputs (s : State) (es : List Edge) :
    ({ s with inputs := es } : State).latchView = s.latchView := rfl

@[simp] theorem latchView_sample (s : State) : s.sample.latchView = s.latchView := rfl

@[simp] theorem latchView_resetStep (s : State) : (resetStep s).latchView = ⟨.bcast, [], 0⟩ := rfl

@[simp] theorem latchView_idleStep (s : State) : (idleStep s).latchView = s.latchView := rfl

@[simp] theorem latchView_byteStep (r rs' : Route) (b : Byte) (s : State) :
    (byteStep r rs' b s).latchView = ⟨rs', s.latchView.bytes ++ [b], s.latchView.n + 1⟩ := by
  simp [State.latchView, byteStep_eq]

/-- One step of the machine moves its view by `LatchView.step`, whatever the switches are. -/
theorem latchView_of_step {s t : State} (h : Machine.step s = .next t) :
    t.latchView = s.latchView.step s.nextEdge.stream := by
  rcases step_cases h with ⟨hrst, rfl⟩ | ⟨hrst, hvalid, hexec⟩ | ⟨hrst, hvalid, rfl⟩
  · rw [latchView_resetStep, Edge.stream, hrst, LatchView.step]
  · rw [exec_decodeByte, Host.Outcome.next.injEq] at hexec
    rw [← hexec, latchView_byteStep, Edge.stream, hrst, hvalid, LatchView.step]
    rfl
  · rw [latchView_idleStep, latchView_sample, Edge.stream, hrst, hvalid, LatchView.step]

/-- A run's view is the fold of its resets and bytes over the view it starts from. -/
theorem latchView_of_runEdges (s : State) (es : List Edge) :
    ∃ t, runEdges s es = .next t ∧ t.latchView = (es.map Edge.stream).foldl LatchView.step s.latchView := by
  induction es generalizing s with
  | nil => exact ⟨_, runEdges_nil s, rfl⟩
  | cons e es ih =>
    obtain ⟨u, hstep⟩ := step_total { s with inputs := e :: es }
    obtain ⟨t, hrun, hview⟩ := ih u
    refine ⟨t, (runEdges_cons_of_step hstep).trans hrun, ?_⟩
    rw [hview, latchView_of_step hstep, nextEdge_cons rfl, latchView_withInputs, List.map_cons, List.foldl_cons]

/-- Settles O42: both runs fold the same resets and bytes over the same view. -/
theorem latchAndBytesIgnoreTheSelector : Obligations.LatchAndBytesIgnoreTheSelector := by
  intro s1 s2 es1 es2 hrs hbytes hn hstream
  obtain ⟨t1, hrun1, hview1⟩ := latchView_of_runEdges s1 es1
  obtain ⟨t2, hrun2, hview2⟩ := latchView_of_runEdges s2 es2
  have hstart : s1.latchView = s2.latchView := by simp only [State.latchView, hrs, hbytes, hn]
  have hedges : es1.map Edge.stream = es2.map Edge.stream := hstream
  have hend : t1.latchView = t2.latchView := by rw [hview1, hview2, hstart, hedges]
  obtain ⟨hrs', hbytes', hn'⟩ := LatchView.mk.inj hend
  exact ⟨t1, t2, hrun1, hrun2, hrs', hbytes', hn'⟩

end Sys2Proof.Machine

/-! PROOFS. The memory family (spec/20_memory.md): the input stream, the windows, and the streams that leave. -/

namespace Sys2Proof.Machine

/-! The window (R33, R76) -/

/-- `4*s + i` does not wrap: it is at most 15 (R70). -/
theorem lut_toNat (s : Sel) (i : Port) : (lut s i).toNat = 4 * s.toNat + i.val := by
  have hs : s.toNat < 4 := s.isLt
  rw [lut, BitVec.toNat_ofNat]
  omega

@[simp] theorem windowOf_getElem (s : Sel) (i : Port) : (windowOf s)[i] = lut s i := by
  fin_cases i <;> rfl

/-- A channel is `4*s + i` exactly when its high half is `s` and its low half `i` (R33). -/
theorem lut_eq_iff (s : Sel) (i : Port) (c : Chan) :
    lut s i = c ↔ c.extractLsb' 2 2 = s ∧ (c.extractLsb' 0 2).toNat = i.val := by
  have hs : s.toNat < 4 := s.isLt
  have hc : c.toNat < 16 := c.isLt
  simp only [← BitVec.toNat_inj, lut_toNat, BitVec.extractLsb'_toNat, Nat.shiftRight_eq_div_pow]
  omega

theorem windowWf_windowOf (s : Sel) : windowWf (windowOf s) = true := by
  have consecutive : (lut s 1).toNat = (lut s 0).toNat + 1 ∧ (lut s 2).toNat = (lut s 1).toNat + 1 ∧
      (lut s 3).toNat = (lut s 2).toNat + 1 := by simp [lut_toNat]
  exact decide_eq_true consecutive

/-- Settles O6: entry `i` is the number `4*s + i`, whose halves are `s` and `i`. -/
theorem eachChannelIsInOneWindowAtOnePort : Obligations.EachChannelIsInOneWindowAtOnePort := by
  refine ⟨windowWf_windowOf, fun s i c => ?_⟩
  rw [windowOf_getElem, lut_eq_iff]

/-! DECIDE, one port at a time (R45, R100) -/

theorem enOf_getLsbD (e0 e1 e2 e3 : Bool) (i : Port) :
    (enOf e0 e1 e2 e3).getLsbD i.val = #v[e0, e1, e2, e3][i] := by
  revert e0 e1 e2 e3 i; decide

theorem decidePorts_ch_getLsbD (c : Chan) (w : Window) (i : Port) :
    (decidePorts (.ch c) w).getLsbD i.val = (w[i] == c) := by
  rw [decidePorts, enOf_getLsbD]
  fin_cases i <;> rfl

theorem decidePorts_bcast_getLsbD (w : Window) (i : Port) : (decidePorts .bcast w).getLsbD i.val = true := by
  have all_ones : ∀ j : Port, (0b1111#4).getLsbD j.val = true := by decide
  exact all_ones i

/-- Port `i` is enabled for a broadcast and for the channel of its window entry, and for no other route (R45). -/
theorem decidePorts_windowOf_getLsbD (r : Route) (sel : Sel) (i : Port) :
    (decidePorts r (windowOf sel)).getLsbD i.val = decide (r = .bcast ∨ r = .ch (lut sel i)) := by
  cases r with
  | bcast => rw [decidePorts_bcast_getLsbD]; simp
  | ch c => rw [decidePorts_ch_getLsbD, windowOf_getElem, Bool.beq_eq_decide_eq]; simp [eq_comm]

/-! The step at an edge without reset -/

/-- An edge with a byte runs the instruction the byte is, in the state sampled (R30, R121). -/
theorem step_of_rxValid {s : State} (hrst : s.nextEdge.rst = false) (hvalid : s.nextEdge.rxValid = true) :
    step s = exec (decodeByte s.nextEdge.rxByte) s.sample := by
  simp [step, clockEdge, hrst, hvalid]

/-- Settles O21: the edge at the head of the input list is the next edge, and sampling takes it off. -/
theorem stepRunsTheDecodedByte : Obligations.StepRunsTheDecodedByte := by
  intro s e rest hinputs hrst hvalid
  have hnext : s.nextEdge = e := nextEdge_cons hinputs
  rw [step_of_rxValid (by rwa [hnext]) (by rwa [hnext]), hnext, sample_cons hinputs]

/-- A step without reset is the BYTE step CLASSIFY gives for the byte presented, or an IDLE step (R117). -/
theorem step_cases_of_noReset {s t : State} (h : step s = .next t) (hrst : s.nextEdge.rst = false) :
    (s.nextEdge.rxValid = true ∧
      t = byteStep (classify s.nextEdge.rxByte s.rs).1 (classify s.nextEdge.rxByte s.rs).2
        s.nextEdge.rxByte s.sample) ∨
    (s.nextEdge.rxValid = false ∧ t = idleStep s.sample) := by
  rcases step_cases h with ⟨hreset, -⟩ | ⟨-, hvalid, hexec⟩ | ⟨-, hvalid, ht⟩
  · simp [hrst] at hreset
  · rw [exec_decodeByte, Host.Outcome.next.injEq] at hexec
    exact .inl ⟨hvalid, hexec.symm⟩
  · exact .inr ⟨hvalid, ht⟩

/-- The abstract step that the next edge of `s` is, where it is no reset (R127). -/
def State.absStep (s : State) : AbsStep := s.nextEdge.abs s.cfg.cfgInvert

theorem absStep_of_rxValid {s : State} (h : s.nextEdge.rxValid = true) :
    s.absStep = .byte s.nextEdge.rxByte s.sample.sel := by
  simp [State.absStep, Edge.abs, h]

theorem absStep_of_not_rxValid {s : State} (h : s.nextEdge.rxValid = false) :
    s.absStep = .idle s.sample.sel := by
  simp [State.absStep, Edge.abs, h]

/-- The abstract step does to the state elements and the output stream what the clocked step does (R112, R127). -/
theorem step_refines_absStep {s t : State} (h : step s = .next t) (hrst : s.nextEdge.rst = false) :
    t.cfg = s.cfg ∧ t.arch = (s.arch.step s.absStep).1 ∧ t.out = s.out ++ (s.arch.step s.absStep).2 := by
  rcases step_cases_of_noReset h hrst with ⟨hvalid, rfl⟩ | ⟨hvalid, rfl⟩
  · rw [absStep_of_rxValid hvalid]
    exact ⟨rfl, rfl, rfl⟩
  · rw [absStep_of_not_rxValid hvalid]
    exact ⟨rfl, rfl, (List.append_nil _).symm⟩

/-! Runs without reset -/

theorem Arch.run_cons (a : Arch) (x : AbsStep) (xs : List AbsStep) :
    a.run (x :: xs) = (((a.step x).1.run xs).1, (a.step x).2 ++ ((a.step x).1.run xs).2) := rfl

/-- What relates the empty run's ends, and is carried back over one step without reset, relates the ends of every run
without reset. -/
theorem runEdges_induction (R : State → List Edge → State → Prop)
    (nil : ∀ s : State, R s [] { s with inputs := [] })
    (cons : ∀ (s u t : State) (e : Edge) (es : List Edge), step { s with inputs := e :: es } = .next u →
      e.rst = false → R u es t → R s (e :: es) t)
    (s : State) (es : List Edge) (hes : NoReset es) :
    ∃ t, runEdges s es = .next t ∧ R s es t := by
  induction es generalizing s with
  | nil => exact ⟨_, runEdges_nil s, nil s⟩
  | cons e es ih =>
    obtain ⟨u, hstep⟩ := step_total { s with inputs := e :: es }
    obtain ⟨t, hrun, hR⟩ := ih u fun x hx => hes x (List.mem_cons_of_mem e hx)
    exact ⟨t, (runEdges_cons_of_step hstep).trans hrun, cons s u t e es hstep (hes e List.mem_cons_self) hR⟩

/-- A run of the clocked machine whose ends are those of the abstract run, with its trace (R127). -/
def RefinesRun (s : State) (es : List Edge) (t : State) : Prop :=
  t.arch = (s.arch.run (es.map (Edge.abs s.cfg.cfgInvert))).1 ∧
  t.out = s.out ++ (s.arch.run (es.map (Edge.abs s.cfg.cfgInvert))).2

theorem refinesRun_cons {s u t : State} {e : Edge} {es : List Edge}
    (hstep : step { s with inputs := e :: es } = .next u) (hrst : e.rst = false) (h : RefinesRun u es t) :
    RefinesRun s (e :: es) t := by
  obtain ⟨hcfg, harch, hout⟩ := step_refines_absStep hstep hrst
  obtain ⟨harch', hout'⟩ := h
  rw [hcfg, harch] at harch' hout'
  refine ⟨harch', ?_⟩
  rw [hout', hout, List.append_assoc]
  rfl

theorem runEdges_refinesRun (s : State) (es : List Edge) (hes : NoReset es) :
    ∃ t, runEdges s es = .next t ∧ RefinesRun s es t :=
  runEdges_induction RefinesRun (fun _ => ⟨rfl, (List.append_nil _).symm⟩)
    (fun _ _ _ _ _ => refinesRun_cons) s es hes

/-! The echo under the spacing premise (R126) -/

/-- The pairs that have left the pins, and the one that waits. -/
def State.echoes (s : State) : List Emit := s.tx ++ pending s

/-- The premise of R126 on one step: no byte comes while one waits. -/
def NoEarlyByte (s : State) : Prop := s.nextEdge.rxValid = true → s.txp = 0

/-- A byte accepted while none waits is owed to the pins with the enables decided for it (R121). -/
theorem echoes_byteStep {s : State} (r rs' : Route) (b : Byte) (hwf : s.cfg.wf = true) (htxp : s.txp = 0) :
    (byteStep r rs' b s).echoes = s.echoes ++ [⟨decidePorts r (windowOf s.sel), b⟩] := by
  have hsettle : 0 < s.cfg.settleCycles := of_decide_eq_true hwf
  simp [State.echoes, pending, byteStep_eq, htxp, hsettle]

/-- At an IDLE step the waiting pair stays owed, or leaves as it stands when the counter goes from 1 to 0 (R123). -/
theorem echoes_idleStep (s : State) : (idleStep s).echoes = s.echoes := by
  have htxp : s.txp = 0 ∨ s.txp = 1 ∨ 1 < s.txp := by omega
  rcases htxp with h0 | h1 | h2
  · simp [State.echoes, pending, idleStep_eq, h0]
  · simp [State.echoes, pending, idleStep_eq, h1]
  · have hleft : 0 < s.txp - 1 := by omega
    simp [State.echoes, pending, idleStep_eq, hleft, h2.ne', Nat.zero_lt_of_lt h2]

/-- Each step adds to the echoes the pair that the abstract step emits (R127). -/
theorem echoes_of_step {s t : State} (h : step s = .next t) (hrst : s.nextEdge.rst = false)
    (hwf : s.cfg.wf = true) (hspaced : NoEarlyByte s) :
    t.echoes = s.echoes ++ (s.arch.step s.absStep).2 := by
  rcases step_cases_of_noReset h hrst with ⟨hvalid, rfl⟩ | ⟨hvalid, rfl⟩
  · rw [absStep_of_rxValid hvalid]
    exact echoes_byteStep _ _ _ hwf (hspaced hvalid)
  · rw [absStep_of_not_rxValid hvalid, echoes_idleStep]
    exact (List.append_nil _).symm

theorem spaced_cons_of_rxValid {settle k : Nat} {e : Edge} {es : List Edge} (h : e.rxValid = true) :
    spaced settle k (e :: es) = true ↔ k = 0 ∧ spaced settle settle es = true := by
  simp [spaced, h]

theorem spaced_cons_of_not_rxValid {settle k : Nat} {e : Edge} {es : List Edge} (h : e.rxValid = false) :
    spaced settle k (e :: es) = true ↔ spaced settle (k - 1) es = true := by
  simp [spaced, h]

/-- The premise of R126 on a list of edges is its premise on the first step, and on the list that is left, with the
counter as that step leaves it. -/
theorem spaced_of_step {s t : State} {e : Edge} {es : List Edge} (h : step { s with inputs := e :: es } = .next t)
    (hrst : e.rst = false) (hspaced : spaced s.cfg.settleCycles s.txp (e :: es) = true) :
    NoEarlyByte { s with inputs := e :: es } ∧ spaced t.cfg.settleCycles t.txp es = true := by
  rcases step_cases_of_noReset h hrst with ⟨hvalid, rfl⟩ | ⟨hvalid, rfl⟩
  · obtain ⟨htxp, hrest⟩ := (spaced_cons_of_rxValid hvalid).mp hspaced
    exact ⟨fun _ => htxp, hrest⟩
  · exact ⟨fun hearly => absurd (hvalid.symm.trans hearly) Bool.false_ne_true,
      (spaced_cons_of_not_rxValid hvalid).mp hspaced⟩

/-- A run whose bytes are spaced adds to the echoes the abstract trace (R127). -/
def EchoesTrace (s : State) (es : List Edge) (t : State) : Prop :=
  s.cfg.wf = true → spaced s.cfg.settleCycles s.txp es = true →
    t.echoes = s.echoes ++ (s.arch.run (es.map (Edge.abs s.cfg.cfgInvert))).2

theorem echoesTrace_cons {s u t : State} {e : Edge} {es : List Edge}
    (hstep : step { s with inputs := e :: es } = .next u) (hrst : e.rst = false) (h : EchoesTrace u es t) :
    EchoesTrace s (e :: es) t := by
  intro hwf hspaced
  obtain ⟨hearly, hspaced'⟩ := spaced_of_step hstep hrst hspaced
  obtain ⟨hcfg, harch, -⟩ := step_refines_absStep hstep hrst
  have hrest := h (by rwa [hcfg]) hspaced'
  rw [hrest, echoes_of_step hstep hrst hwf hearly, hcfg, harch, List.append_assoc]
  rfl

/-- Settles O36: the pairs that have left and the one that waits grow, at each step, by what the abstract step emits. -/
theorem spacedBytesAreEchoedWithTheirEnables : Obligations.SpacedBytesAreEchoedWithTheirEnables := by
  intro s es hwf hes hspaced
  obtain ⟨t, hrun, htrace⟩ := runEdges_induction EchoesTrace (fun _ _ _ => (List.append_nil _).symm)
    (fun _ _ _ _ _ => echoesTrace_cons) s es hes
  exact ⟨t, hrun, htrace hwf hspaced⟩

/-! The bytes of the output stream (R31) -/

theorem bytesFed_cons (e : Edge) (es : List Edge) :
    bytesFed (e :: es) = if e.rxValid then e.rxByte :: bytesFed es else bytesFed es := by
  cases hvalid : e.rxValid <;> simp [bytesFed, fed, hvalid]

/-- Without a reset the fold of the resets and bytes appends the bytes and counts them. -/
theorem foldl_latchView_of_noReset (v : LatchView) (es : List Edge) (hes : NoReset es) :
    ((es.map Edge.stream).foldl LatchView.step v).bytes = v.bytes ++ bytesFed es ∧
    ((es.map Edge.stream).foldl LatchView.step v).n = v.n + (bytesFed es).length := by
  induction es generalizing v with
  | nil => exact ⟨(List.append_nil _).symm, rfl⟩
  | cons e es ih =>
    obtain ⟨hrst, hes⟩ := List.forall_mem_cons.mp hes
    obtain ⟨hbytes, hn⟩ := ih (v.step e.stream) hes
    rw [List.map_cons, List.foldl_cons, hbytes, hn, bytesFed_cons, Edge.stream, hrst]
    cases e.rxValid with
    | false => exact ⟨rfl, rfl⟩
    | true => simp [LatchView.step, Nat.add_assoc, Nat.add_comm 1]

/-- Settles O38: bytes and index of the output stream are the fold of the bytes fed, which appends each as it comes. -/
theorem outputStreamCopiesTheInputStream : Obligations.OutputStreamCopiesTheInputStream := by
  intro s es hes
  obtain ⟨t, hrun, hview⟩ := latchView_of_runEdges s es
  obtain ⟨hbytes, hn⟩ := foldl_latchView_of_noReset s.latchView es hes
  rw [← hview] at hbytes hn
  exact ⟨t, hrun, hbytes, hn⟩

/-! The stream of one port (R45) -/

/-- The pair a byte with its route leaves as under the selector `sel` (R44). -/
def emitUnder (sel : Sel) (p : Byte × Route) : Emit := ⟨decidePorts p.2 (windowOf sel), p.1⟩

/-- Under a fixed selector the trace is the bytes, each decided on the route CLASSIFY gives it (R45, R84). -/
theorem run_trace_of_fixed_selector (invert : Bool) (sel : Sel) (a : Arch) (es : List Edge)
    (hsel : ∀ e ∈ es, e.rxValid = true → selOfPins invert e.cfgPin = sel) :
    (a.run (es.map (Edge.abs invert))).2 =
      ((bytesFed es).zip (routesFrom a.rs (bytesFed es))).map (emitUnder sel) := by
  induction es generalizing a with
  | nil => rfl
  | cons e es ih =>
    obtain ⟨hhead, htail⟩ := List.forall_mem_cons.mp hsel
    rw [List.map_cons, Arch.run_cons, ih _ htail, bytesFed_cons]
    cases hvalid : e.rxValid with
    | false => simp [Edge.abs, hvalid, Arch.step]
    | true => simp [Edge.abs, hvalid, hhead hvalid, Arch.step, routesFrom, emitUnder]

theorem portStream_append (i : Port) (xs ys : List Emit) :
    portStream i (xs ++ ys) = portStream i xs ++ portStream i ys := by
  simp [portStream]

/-- Of the pairs decided under one selector, port `i` sees the broadcasts and its own channel (R45). -/
theorem portStream_map_emitUnder (i : Port) (sel : Sel) (ps : List (Byte × Route)) :
    portStream i (ps.map (emitUnder sel)) =
      (ps.filter fun p => decide (p.2 = .bcast ∨ p.2 = .ch (lut sel i))).map Prod.fst := by
  have hbit : (fun x : Emit => x.en.getLsbD i.val) ∘ emitUnder sel =
      fun p => decide (p.2 = .bcast ∨ p.2 = .ch (lut sel i)) :=
    funext fun p => decidePorts_windowOf_getLsbD p.2 sel i
  rw [portStream, List.filter_map, hbit, List.map_map]
  rfl

/-- Settles O41: the output stream grows by the abstract trace, which port `i` sees through DECIDE's bit `i`. -/
theorem portReceivesBroadcastsAndItsChannel : Obligations.PortReceivesBroadcastsAndItsChannel := by
  intro s es sel i hes hsel
  obtain ⟨t, hrun, -, hout⟩ := runEdges_refinesRun s es hes
  refine ⟨t, hrun, ?_⟩
  rw [hout, portStream_append, run_trace_of_fixed_selector _ sel _ _ hsel, portStream_map_emitUnder]
  rfl

end Sys2Proof.Machine

/-! PROOFS. The encoding family (spec/30_encoding.md): encode and decode, the table's rows, and the classes. -/

namespace Sys2Proof.Machine

/-! A byte as a row's fixed bits above its operand (R51, R54) -/

theorem toNat_append_eq_add {w v : Nat} (hi : BitVec w) (lo : BitVec v) :
    (hi ++ lo).toNat = hi.toNat * 2 ^ v + lo.toNat := by
  rw [BitVec.toNat_append, ← Nat.shiftLeft_add_eq_or_of_lt lo.isLt, Nat.shiftLeft_eq]

/-- Where a row's range starts, the operand is 0: reaching that byte is a matter of the bits above the operand. -/
theorem append_zero_le_append {w v : Nat} (h hi : BitVec w) (lo : BitVec v) : h ++ 0#v ≤ hi ++ lo ↔ h ≤ hi := by
  have hquot : (hi.toNat * 2 ^ v + lo.toNat) / 2 ^ v = hi.toNat := by
    rw [Nat.mul_comm, Nat.mul_add_div (Nat.two_pow_pos v), Nat.div_eq_of_lt lo.isLt, Nat.add_zero]
  rw [BitVec.le_def, BitVec.le_def, toNat_append_eq_add, toNat_append_eq_add, BitVec.toNat_ofNat, Nat.zero_mod,
    Nat.add_zero, ← Nat.le_div_iff_mul_le (Nat.two_pow_pos v), hquot]

@[simp] theorem channelOf_append (hi : BitVec 4) (n : Chan) : channelOf (hi ++ n) = n :=
  BitVec.extractLsb'_append_eq_right

@[simp] theorem subCodeOf_append (hi : BitVec 5) (k : BitVec 3) : subCodeOf (hi ++ k) = k :=
  BitVec.extractLsb'_append_eq_right

@[simp] theorem payloadOf_append (hi : BitVec 1) (d : BitVec 7) : payloadOf (hi ++ d) = d :=
  BitVec.extractLsb'_append_eq_right

/-! The ranges from which the decoder reads an instruction (R52, R55 to R58) -/

/-- A byte that does not reach `c` reaches nothing above `c`. -/
theorem not_le_of_le_of_not_le {b c d : Byte} (hcd : c ≤ d) (hc : ¬ c ≤ b) : ¬ d ≤ b :=
  mt (BitVec.le_trans hcd) hc

theorem decodeByte_of_sysrt {b : Byte} (hF8 : 0xF8#8 ≤ b) : decodeByte b = .sysrt (subCodeOf b) := by
  rw [decodeByte, if_pos hF8]

theorem decodeByte_of_syscom {b : Byte} (hF8 : ¬ 0xF8#8 ≤ b) (hF0 : 0xF0#8 ≤ b) :
    decodeByte b = .syscom (subCodeOf b) := by
  rw [decodeByte, if_neg hF8, if_pos hF0]

theorem decodeByte_of_data {b : Byte} (h80 : ¬ 0x80#8 ≤ b) : decodeByte b = .data (payloadOf b) := by
  have below (c : Byte) (hc : 0x80#8 ≤ c) : ¬ c ≤ b := not_le_of_le_of_not_le hc h80
  simp [decodeByte, below]

/-- Below the system bytes the high nibble picks the row, and the low nibble is its channel (R55). -/
theorem decodeByte_nibbles (hi n : BitVec 4) (hF : ¬ 0xF#4 ≤ hi) :
    decodeByte (hi ++ n) =
      if 0xE#4 ≤ hi then .chanE n
      else if 0xD#4 ≤ hi then .chanD n
      else if 0xC#4 ≤ hi then .chanC n
      else if 0xB#4 ≤ hi then .chanB n
      else if 0xA#4 ≤ hi then .chanA n
      else if 0x9#4 ≤ hi then .chan9 n
      else if 0x8#4 ≤ hi then .chan8 n
      else .data (payloadOf (hi ++ n)) := by
  have starts (h : BitVec 4) : h ++ 0#4 ≤ hi ++ n ↔ h ≤ hi := append_zero_le_append h hi n
  have hF0 : ¬ 0xF0#8 ≤ hi ++ n := (starts 0xF).not.mpr hF
  have hF8 : ¬ 0xF8#8 ≤ hi ++ n := not_le_of_le_of_not_le (by decide) hF0
  rw [decodeByte, if_neg hF8, if_neg hF0, channelOf_append]
  exact if_congr (starts 0xE) rfl <| if_congr (starts 0xD) rfl <| if_congr (starts 0xC) rfl <|
    if_congr (starts 0xB) rfl <| if_congr (starts 0xA) rfl <| if_congr (starts 0x9) rfl <|
    if_congr (starts 0x8) rfl rfl

/-- Every instruction decodes from its own byte: the fixed bits put the byte in its row's range, and the bits below
them are the operand (R65). -/
@[simp] theorem decodeByte_encode (i : Instr) : decodeByte (encode i) = i := by
  cases i with
  | data d =>
    have h80 : ¬ 0x80#8 ≤ 0b0#1 ++ d := (append_zero_le_append 0b1#1 0b0#1 d).not.mpr (by decide)
    rw [encode, decodeByte_of_data h80, payloadOf_append]
  | chan8 n => exact decodeByte_nibbles 0x8 n (by decide)
  | chan9 n => exact decodeByte_nibbles 0x9 n (by decide)
  | chanA n => exact decodeByte_nibbles 0xA n (by decide)
  | chanB n => exact decodeByte_nibbles 0xB n (by decide)
  | chanC n => exact decodeByte_nibbles 0xC n (by decide)
  | chanD n => exact decodeByte_nibbles 0xD n (by decide)
  | chanE n => exact decodeByte_nibbles 0xE n (by decide)
  | syscom k =>
    have starts (h : BitVec 5) : h ++ 0#3 ≤ 0b11110#5 ++ k ↔ h ≤ 0b11110#5 := append_zero_le_append h _ k
    have hF8 : ¬ 0xF8#8 ≤ 0b11110#5 ++ k := (starts 0b11111).not.mpr (by decide)
    have hF0 : 0xF0#8 ≤ 0b11110#5 ++ k := (starts 0b11110).mpr (by decide)
    rw [encode, decodeByte_of_syscom hF8 hF0, subCodeOf_append]
  | sysrt k =>
    have hF8 : 0xF8#8 ≤ 0b11111#5 ++ k := (append_zero_le_append 0b11111#5 _ k).mpr (by decide)
    rw [encode, decodeByte_of_sysrt hF8, subCodeOf_append]

/-- Settles O1: the two round trips, and the decoder takes the head of the list. -/
theorem decodeAndEncodeAreInverse : Obligations.DecodeAndEncodeAreInverse := by
  refine ⟨decodeByte_encode, fun i rest => ?_, encode_decodeByte⟩
  rw [decode, decodeByte_encode]

/-! The rows of the opcode table (R53, R66) -/

/-- A mask of the bits above the operand leaves those bits. -/
theorem append_and_prefixMask {w v : Nat} (hi : BitVec w) (lo : BitVec v) :
    (hi ++ lo) &&& (BitVec.allOnes w ++ 0#v) = hi ++ 0#v := by
  rw [BitVec.and_append, BitVec.and_allOnes, BitVec.and_zero]

theorem row_selects_encode (i : Instr) : i.row.selects (encode i) = true := by
  rw [Row.selects, beq_iff_eq]
  cases i with
  | data d => exact append_and_prefixMask 0b0#1 d
  | chan8 n => exact append_and_prefixMask 0x8#4 n
  | chan9 n => exact append_and_prefixMask 0x9#4 n
  | chanA n => exact append_and_prefixMask 0xA#4 n
  | chanB n => exact append_and_prefixMask 0xB#4 n
  | chanC n => exact append_and_prefixMask 0xC#4 n
  | chanD n => exact append_and_prefixMask 0xD#4 n
  | chanE n => exact append_and_prefixMask 0xE#4 n
  | syscom k => exact append_and_prefixMask 0b11110#5 k
  | sysrt k => exact append_and_prefixMask 0b11111#5 k

theorem row_mem_opcodeTable (i : Instr) : i.row ∈ opcodeTable := by
  cases i <;> simp [opcodeTable, Instr.row]

theorem opcodeTable_nodup : opcodeTable.Nodup := by decide

/-- Two rows of the table differ in some bit that both of them fix. -/
theorem opcodeTable_disjoint :
    ∀ r ∈ opcodeTable, ∀ q ∈ opcodeTable, r.value &&& q.mask = q.value &&& r.mask → r = q := by decide

/-- Rows that select one byte agree with it, hence with each other, on the bits that both fix. -/
theorem row_eq_of_selects {r q : Row} {b : Byte} (hr : r ∈ opcodeTable) (hq : q ∈ opcodeTable)
    (hrb : r.selects b = true) (hqb : q.selects b = true) : r = q := by
  rw [Row.selects, beq_iff_eq] at hrb hqb
  refine opcodeTable_disjoint r hr q hq ?_
  rw [← hrb, ← hqb, BitVec.and_assoc, BitVec.and_assoc, BitVec.and_comm r.mask]

theorem selects_iff_eq_row {r : Row} (hr : r ∈ opcodeTable) (b : Byte) :
    r.selects b = true ↔ r = (decodeByte b).row := by
  have hrow : (decodeByte b).row.selects b = true := by
    simpa only [encode_decodeByte] using row_selects_encode (decodeByte b)
  exact ⟨fun h => row_eq_of_selects hr (row_mem_opcodeTable _) h hrow, fun h => h ▸ hrow⟩

/-- Settles O2: the filter keeps the decoded instruction's row, which stands in the table once. -/
theorem oneTableRowSelectsEachByte : Obligations.OneTableRowSelectsEachByte := by
  intro b
  have only_its_row : ∀ r ∈ opcodeTable, r.selects b = decide (r = (decodeByte b).row) :=
    fun r hr => Bool.eq_iff_iff.mpr ((selects_iff_eq_row hr b).trans decide_eq_true_iff.symm)
  rw [List.filter_congr only_its_row, List.filter_eq,
    List.count_eq_one_of_mem opcodeTable_nodup (row_mem_opcodeTable _), List.replicate_one]

/-! The classes (R52) -/

/-- The bit tests of R52 are its numeric ranges. -/
theorem classOf_eq_ranges (b : Byte) :
    classOf b =
      if 0xF8#8 ≤ b then .sysrt else if 0xF0#8 ≤ b then .syscom else if 0x80#8 ≤ b then .chan else .data := by
  have hb : b.toNat < 256 := b.isLt
  have high_bits (h : BitVec 5) : b.extractLsb' 3 5 = h ↔ b.toNat / 8 = h.toNat := by
    rw [← BitVec.toNat_inj, BitVec.extractLsb'_toNat, Nat.shiftRight_eq_div_pow, Nat.mod_eq_of_lt (by omega)]
  have sysrt_bits : b.extractLsb' 3 5 = 0b11111#5 ↔ 0xF8#8 ≤ b := by
    simp only [high_bits, BitVec.le_def, BitVec.toNat_ofNat]
    omega
  have syscom_bits (hF8 : ¬ 0xF8#8 ≤ b) : b.extractLsb' 3 5 = 0b11110#5 ↔ 0xF0#8 ≤ b := by
    simp only [high_bits, BitVec.le_def, BitVec.toNat_ofNat] at hF8 ⊢
    omega
  have top_bit : b.getLsbD 7 = true ↔ 0x80#8 ≤ b := by
    rw [← BitVec.msb_eq_getLsbD_last, BitVec.msb_eq_decide, decide_eq_true_iff, BitVec.le_def]
    rfl
  rw [classOf]
  by_cases hF8 : 0xF8#8 ≤ b
  · rw [if_pos hF8, if_pos (sysrt_bits.mpr hF8)]
  · rw [if_neg hF8, if_neg (sysrt_bits.not.mpr hF8)]
    exact if_congr (syscom_bits hF8) rfl (if_congr top_bit rfl rfl)

theorem classOf_of_sysrt {b : Byte} (hF8 : 0xF8#8 ≤ b) : classOf b = .sysrt := by
  rw [classOf_eq_ranges, if_pos hF8]

theorem classOf_of_data {b : Byte} (h80 : ¬ 0x80#8 ≤ b) : classOf b = .data := by
  have below (c : Byte) (hc : 0x80#8 ≤ c) : ¬ c ≤ b := not_le_of_le_of_not_le hc h80
  simp [classOf_eq_ranges, below]

theorem cls_decodeByte (b : Byte) : (decodeByte b).cls = classOf b := by
  by_cases h80 : 0x80#8 ≤ b
  · rw [classOf_eq_ranges, decodeByte, if_pos h80, if_pos h80]
    split_ifs <;> rfl
  · rw [decodeByte_of_data h80, classOf_of_data h80, Instr.cls]

/-- Settles O3, range by range: which of the decoder's and CLASSIFY's tests a byte of the range passes. -/
theorem classesAreTheFourRanges : Obligations.ClassesAreTheFourRanges := by
  intro b rs
  refine ⟨cls_decodeByte b, fun hF8 => ?sysrt, fun hF0 hF7 => ?syscom, fun h80 hEF => ?chan, fun h7F => ?data,
    fun hclass => ?route_is_latch⟩
  case sysrt => exact ⟨classOf_of_sysrt hF8, if_pos hF8⟩
  case syscom =>
    have hF8 : ¬ 0xF8#8 ≤ b := by bv_omega
    rw [classOf_eq_ranges, classify]
    simp [hF8, hF0]
  case chan =>
    have hF0 : ¬ 0xF0#8 ≤ b := by bv_omega
    have hF8 : ¬ 0xF8#8 ≤ b := not_le_of_le_of_not_le (by decide) hF0
    rw [classOf_eq_ranges, classify]
    simp [hF8, hF0, h80]
  case data =>
    have h80 : ¬ 0x80#8 ≤ b := by bv_omega
    have below (c : Byte) (hc : 0x80#8 ≤ c) : ¬ c ≤ b := not_le_of_le_of_not_le hc h80
    rw [classOf_of_data h80, classify]
    simp [below]
  case route_is_latch =>
    rw [classify, if_neg (mt classOf_of_sysrt hclass)]
    split_ifs <;> rfl

end Sys2Proof.Machine

/-! PROOFS. The config window family (spec/40_config_window.md): the window table, RESOLVE, and that no instruction reads
what the latched selector or the enables were. -/

namespace Sys2Proof.Machine

/-! The window table (R70) -/

/-- Settles O5: the sum never reaches 16, and the two worked windows of R70 are its instances. -/
theorem windowEntryIsFourTimesSelectorPlusPort : Obligations.WindowEntryIsFourTimesSelectorPlusPort := by
  have window_two : windowOf 2#2 = #v[8#4, 9#4, 10#4, 11#4] := by decide
  have window_zero : windowOf 0#2 = #v[0#4, 1#4, 2#4, 3#4] := by decide
  exact ⟨lut_toNat, windowOf_getElem, window_two, window_zero⟩

/-! RESOLVE (R71, R75) -/

theorem resolve_eq (s : State) : s.resolve = { s with wsel := s.sel } := rfl

/-- The corner case of R71: a selector that is already latched is no change. -/
theorem resolve_of_wsel_eq_sel {s : State} (h : s.wsel = s.sel) : s.resolve = s := by
  rw [resolve_eq, ← h]

/-- After a RESOLVE the selector present is the latched one, so a second finds nothing to change (R75). -/
@[simp] theorem resolve_resolve (s : State) : s.resolve.resolve = s.resolve := by
  have latched : s.resolve.wsel = s.resolve.sel := by rw [State.resolve_wsel, sel_resolve]
  exact resolve_of_wsel_eq_sel latched

/-- Settles O7: the window is the one of the selector written, and a second RESOLVE gives the same state. -/
theorem resolveWritesOnlyTheLatchedSelector : Obligations.ResolveWritesOnlyTheLatchedSelector := by
  intro s
  refine ⟨resolve_eq s, win_resolve s, resolve_resolve s, ?second_window⟩
  case second_window => rw [resolve_resolve]

/-! Full recomputation (R72, R106, R112) -/

/-- RESOLVE and Drive overwrite `WSEL` and `OE` before the BYTE step uses either. -/
theorem byteStep_withSelectorAndEnables (r rs' : Route) (b : Byte) (s : State) (w : Sel) (e : En) :
    byteStep r rs' b { s with wsel := w, oe := e } = byteStep r rs' b s := by
  have same_sel : ({ s with wsel := w, oe := e } : State).sel = s.sel := rfl
  rw [byteStep_eq, byteStep_eq, same_sel]

/-- Settles O18: an instruction is a BYTE step whose route and new latch CLASSIFY takes from the byte and the latch. -/
theorem instructionsIgnoreOldSelectorAndEnables : Obligations.InstructionsIgnoreOldSelectorAndEnables := by
  intro i s w e
  rw [exec_eq_byteStep, exec_eq_byteStep, byteStep_withSelectorAndEnables]

end Sys2Proof.Machine

/-! PROOFS. The state machine family (spec/41_midi_state_machine.md): the effect of each instruction, and the closed forms
of the latch, the routes and the whole trace. -/

namespace Sys2Proof.Machine

/-! What each instruction does and leaves alone (R80 to R83) -/

theorem byteStep_effect (r rs' : Route) (b : Byte) (s : State) : ByteEffect s (byteStep r rs' b s) r rs' b where
  rs := rfl
  wsel := rfl
  oe := rfl
  out := rfl
  n := rfl
  cfg := rfl
  cfgPin := rfl
  inputs := rfl
  tx := rfl
  freeIdx := rfl

/-- CLASSIFY on an instruction's byte names the route and the latch of its effect (R84, R110). -/
theorem exec_effect_of_classify {i : Instr} {s : State} {r rs' : Route} (h : classify (encode i) s.rs = (r, rs')) :
    ∃ t, exec i s = .next t ∧ ByteEffect s t r rs' (encode i) := by
  refine ⟨byteStep r rs' (encode i) s, ?_, byteStep_effect r rs' (encode i) s⟩
  rw [exec_eq_byteStep, h]

/-- Settles O13: CLASSIFY answers a DATA byte with the latch, twice. -/
theorem dataFollowsTheLatch : Obligations.DataFollowsTheLatch :=
  fun d s => exec_effect_of_classify (classify_encode_data d s.rs)

/-- A CHAN row is a nibble from 8 to E above the channel, which is all that its effect depends on (R55, R81). -/
theorem exec_effect_of_chan {i : Instr} {hi n : BitVec 4} (henc : encode i = hi ++ n) (h8 : 0x8#4 ≤ hi)
    (hE : hi ≤ 0xE#4) (s : State) :
    ∃ t, exec i s = .next t ∧ ByteEffect s t (.ch n) (.ch n) (hi ++ n) := by
  rw [← henc]
  exact exec_effect_of_classify (by rw [henc, classify_chan hi n s.rs h8 hE])

/-- Settles O14: the seven rows differ in the high nibble alone. -/
theorem chanLatchesItsLowNibble : Obligations.ChanLatchesItsLowNibble := by
  intro n s
  refine ⟨?chan8, ?chan9, ?chanA, ?chanB, ?chanC, ?chanD, ?chanE⟩ <;>
    exact exec_effect_of_chan rfl (by decide) (by decide) s

/-- Settles O15: CLASSIFY answers a SYSCOM byte with BROADCAST, twice. -/
theorem syscomCancelsRunningStatus : Obligations.SyscomCancelsRunningStatus :=
  fun k s => exec_effect_of_classify (classify_encode_syscom k s.rs)

/-- Settles O16: CLASSIFY answers a SYSRT byte with BROADCAST and the latch it was given (C1). -/
theorem sysrtBroadcastsAndKeepsTheLatch : Obligations.SysrtBroadcastsAndKeepsTheLatch :=
  fun k s => exec_effect_of_classify (classify_encode_sysrt k s.rs)

/-! CLASSIFY by the class of the byte (R52, R84) -/

theorem classify_of_classOf (b : Byte) (rs : Route) :
    classify b rs =
      match classOf b with
      | .data => (rs, rs)
      | .chan => (.ch (b.extractLsb' 0 4), .ch (b.extractLsb' 0 4))
      | .syscom => (.bcast, .bcast)
      | .sysrt => (.bcast, rs) := by
  rw [classOf_eq_ranges, classify]
  split_ifs <;> rfl

/-- Under BROADCAST only a CHAN byte is not broadcast, and only it moves the latch (R86). -/
theorem classify_bcast_of_not_chan {b : Byte} (h : classOf b ≠ .chan) : classify b .bcast = (.bcast, .bcast) := by
  rw [classify_of_classOf]
  cases hclass : classOf b with
  | data | syscom | sysrt => rfl
  | chan => exact absurd hclass h

/-! The latch after a byte sequence (R87) -/

/-- The latch that the bytes `bs` leave, one CLASSIFY each, from the latch `rs` (R86). -/
def latchFrom (rs : Route) (bs : List Byte) : Route := bs.foldl (fun r b => (classify b r).2) rs

@[simp] theorem latchFrom_nil (rs : Route) : latchFrom rs [] = rs := rfl

@[simp] theorem latchFrom_cons (rs : Route) (b : Byte) (bs : List Byte) :
    latchFrom rs (b :: bs) = latchFrom (classify b rs).2 bs := rfl

theorem latchFrom_concat (rs : Route) (bs : List Byte) (b : Byte) :
    latchFrom rs (bs ++ [b]) = (classify b (latchFrom rs bs)).2 := by
  rw [latchFrom, List.foldl_concat, ← latchFrom]

theorem latching_iff (b : Byte) : latching b = true ↔ 0x80#8 ≤ b ∧ ¬ 0xF8#8 ≤ b := by
  have below_F8 : b ≤ 0xF7#8 ↔ ¬ 0xF8#8 ≤ b := by bv_omega
  rw [latching, decide_eq_true_iff, below_F8]

/-- A CHAN or SYSCOM byte decides the latch, whatever it was (R81, R82). -/
theorem classify_latch_of_latching {b : Byte} (h : latching b = true) (rs : Route) :
    (classify b rs).2 = if 0xF0#8 ≤ b then .bcast else .ch (b.extractLsb' 0 4) := by
  obtain ⟨h80, hF8⟩ := (latching_iff b).mp h
  rw [classify, if_neg hF8, if_pos h80]
  split_ifs <;> rfl

/-- A DATA or SYSRT byte leaves the latch as it is (R80, R83). -/
theorem classify_latch_of_not_latching {b : Byte} (h : ¬ latching b = true) (rs : Route) :
    (classify b rs).2 = rs := by
  by_cases hF8 : 0xF8#8 ≤ b
  · rw [classify, if_pos hF8]
  · have h80 : ¬ 0x80#8 ≤ b := fun h80 => h ((latching_iff b).mpr ⟨h80, hF8⟩)
    have hF0 : ¬ 0xF0#8 ≤ b := not_le_of_le_of_not_le (by decide) h80
    rw [classify, if_neg hF8, if_neg hF0, if_neg h80]

/-- One byte more moves the closed form of R87 as it moves the latch. -/
theorem latchAfter_concat (bs : List Byte) (b : Byte) :
    latchAfter (bs ++ [b]) = (classify b (latchAfter bs)).2 := by
  by_cases h : latching b = true
  · rw [classify_latch_of_latching h, latchAfter, List.filter_append, List.filter_singleton, h, cond_true,
      List.getLast?_concat]
  · rw [classify_latch_of_not_latching h, latchAfter, List.filter_append, List.filter_singleton,
      Bool.eq_false_of_not_eq_true h, cond_false, List.append_nil, ← latchAfter]

/-- From BROADCAST, as after reset, the latch is the closed form of R87. -/
theorem latchFrom_bcast (bs : List Byte) : latchFrom .bcast bs = latchAfter bs := by
  induction bs using List.reverseRecOn with
  | nil => rfl
  | append_singleton bs b ih => rw [latchFrom_concat, latchAfter_concat, ih]

/-! The route of byte number `N` (R88) -/

@[simp] theorem routesFrom_length (rs : Route) (bs : List Byte) : (routesFrom rs bs).length = bs.length := by
  induction bs generalizing rs with
  | nil => rfl
  | cons b bs ih => rw [routesFrom, List.length_cons, ih, List.length_cons]

/-- The route of a byte is CLASSIFY on the latch that the bytes before it leave. -/
theorem routesFrom_getElem? (rs : Route) (bs : List Byte) (N : Nat) :
    (routesFrom rs bs)[N]? = bs[N]?.map fun b => (classify b (latchFrom rs (bs.take N))).1 := by
  induction bs generalizing rs N with
  | nil => rfl
  | cons b bs ih =>
    cases N with
    | zero => rfl
    | succ N =>
      rw [routesFrom, List.getElem?_cons_succ, ih, List.getElem?_cons_succ, List.take_succ_cons, latchFrom_cons]

theorem classify_route_latchAfter (before : List Byte) (b : Byte) :
    (classify b (latchAfter before)).1 = routeAfter before b := by
  rw [classify_of_classOf, routeAfter]
  cases classOf b <;> rfl

/-- From BROADCAST the routes are the closed form of R88. -/
theorem routesFrom_bcast_getElem? (bs : List Byte) (N : Nat) :
    (routesFrom .bcast bs)[N]? = bs[N]?.map (routeAfter (bs.take N)) := by
  rw [routesFrom_getElem?, latchFrom_bcast]
  simp only [classify_route_latchAfter]

/-! The enables in closed form (R104) -/

/-- The one-hot form, too, enables port `i` for the channel of its window entry and for no other. -/
theorem onehotEnables_ch_getLsbD (c : Chan) (sel : Sel) (i : Port) :
    (onehotEnables (.ch c) sel).getLsbD i.val = decide (lut sel i = c) := by
  have one_hot : ∀ (x : BitVec 2) (j : Port), (0b0001#4 <<< x).getLsbD j.val = decide (x.toNat = j.val) := by decide
  by_cases hit : c.extractLsb' 2 2 = sel
  · simp only [onehotEnables, hit, if_true, one_hot, lut_eq_iff, true_and]
  · simp [onehotEnables, lut_eq_iff, hit]

/-- On a selector's window DECIDE is the one-hot of R104, port by port. -/
theorem decidePorts_windowOf (r : Route) (sel : Sel) : decidePorts r (windowOf sel) = onehotEnables r sel := by
  cases r with
  | bcast => rfl
  | ch c =>
    refine BitVec.eq_of_getLsbD_eq fun i hi => ?_
    have at_port := decidePorts_ch_getLsbD c (windowOf sel) ⟨i, hi⟩
    rw [windowOf_getElem, Bool.beq_eq_decide_eq] at at_port
    exact at_port.trans (onehotEnables_ch_getLsbD c sel ⟨i, hi⟩).symm

/-! Runs as functions of the bytes fed -/

/-- How the inversion of the pins is set has no part in the bytes. -/
theorem map_fst_fed (invert : Bool) (es : List Edge) : (fed invert es).map Prod.fst = bytesFed es := by
  induction es with
  | nil => rfl
  | cons e es ih =>
    rw [bytesFed_cons, fed, ← ih]
    cases e.rxValid <;> rfl

theorem forall_mem_bytesFed {P : Byte → Prop} {es : List Edge} (h : ∀ e ∈ es, e.rxValid = true → P e.rxByte) :
    ∀ b ∈ bytesFed es, P b := by
  induction es with
  | nil => exact fun b hb => absurd hb List.not_mem_nil
  | cons e es ih =>
    obtain ⟨hhead, htail⟩ := List.forall_mem_cons.mp h
    rw [bytesFed_cons]
    split
    · exact List.forall_mem_cons.mpr ⟨hhead ‹_›, ih htail⟩
    · exact ih htail

/-- The latch an abstract run ends with is the one its bytes leave: IDLE steps do not touch it (R116). -/
theorem run_latch (invert : Bool) (a : Arch) (es : List Edge) :
    (a.run (es.map (Edge.abs invert))).1.rs = latchFrom a.rs (bytesFed es) := by
  induction es generalizing a with
  | nil => rfl
  | cons e es ih =>
    rw [List.map_cons, Arch.run_cons, ih, bytesFed_cons]
    cases hvalid : e.rxValid <;> simp [Edge.abs, hvalid, Arch.step]

/-- The pairs of bytes that come with their selectors, from the latch `rs` (R44, R84). -/
def traceFrom (rs : Route) (ps : List (Byte × Sel)) : List Emit :=
  List.zipWith (fun p r => emitUnder p.2 (p.1, r)) ps (routesFrom rs (ps.map Prod.fst))

@[simp] theorem traceFrom_cons (rs : Route) (p : Byte × Sel) (ps : List (Byte × Sel)) :
    traceFrom rs (p :: ps) = emitUnder p.2 (p.1, (classify p.1 rs).1) :: traceFrom (classify p.1 rs).2 ps := rfl

@[simp] theorem traceFrom_length (rs : Route) (ps : List (Byte × Sel)) : (traceFrom rs ps).length = ps.length := by
  simp [traceFrom]

theorem run_trace (invert : Bool) (a : Arch) (es : List Edge) :
    (a.run (es.map (Edge.abs invert))).2 = traceFrom a.rs (fed invert es) := by
  induction es generalizing a with
  | nil => rfl
  | cons e es ih =>
    rw [List.map_cons, Arch.run_cons, ih, fed]
    cases hvalid : e.rxValid <;> simp [Edge.abs, hvalid, Arch.step, emitUnder]

/-- A run without reset ends with the latch that its bytes leave, and has emitted their pairs. -/
theorem runEdges_latch_and_trace (s : State) (es : List Edge) (hes : NoReset es) :
    ∃ t, runEdges s es = .next t ∧ t.rs = latchFrom s.rs (bytesFed es) ∧
      t.out = s.out ++ traceFrom s.rs (fed s.cfg.cfgInvert es) := by
  obtain ⟨t, hrun, harch, hout⟩ := runEdges_refinesRun s es hes
  rw [run_trace] at hout
  have hlatch : t.arch.rs = latchFrom s.rs (bytesFed es) := by rw [harch, run_latch]; rfl
  exact ⟨t, hrun, hlatch, hout⟩

/-- Settles O39: the latch is moved by the bytes alone, and from BROADCAST in the closed form of R87. -/
theorem latchIsDecidedByTheLastLatchingByte : Obligations.LatchIsDecidedByTheLastLatchingByte := by
  intro s es hrs hes
  obtain ⟨t, hrun, hlatch, -⟩ := runEdges_latch_and_trace s es hes
  refine ⟨t, hrun, ?_⟩
  rw [hlatch, hrs, latchFrom_bcast]

/-- From BROADCAST each pair is the one-hot decision on its byte's route, in the closed forms of R88 and R104. -/
theorem traceFrom_bcast_getElem? {ps : List (Byte × Sel)} {N : Nat} {p : Byte × Sel} (h : ps[N]? = some p) :
    (traceFrom .bcast ps)[N]? = some ⟨onehotEnables (routeAfter ((ps.take N).map Prod.fst) p.1) p.2, p.1⟩ := by
  have hroute : (routesFrom .bcast (ps.map Prod.fst))[N]? = some (routeAfter ((ps.take N).map Prod.fst) p.1) := by
    rw [routesFrom_bcast_getElem?, List.getElem?_map, h, ← List.map_take]
    rfl
  rw [traceFrom, List.getElem?_zipWith, h, hroute]
  simp only [emitUnder, decidePorts_windowOf]

/-- Settles O40: the output stream grows by one pair for each byte fed, and pair `N` of them is the closed form. -/
theorem traceClosedForm : Obligations.TraceClosedForm := by
  intro s es hrs hes
  obtain ⟨t, hrun, -, hout⟩ := runEdges_latch_and_trace s es hes
  rw [hrs] at hout
  refine ⟨t, hrun, ?length, fun N p hp => ?pair⟩
  case length => rw [hout, List.length_append, traceFrom_length]
  case pair =>
    rw [hout, List.getElem?_append_right (Nat.le_add_right _ _), Nat.add_sub_cancel_left, traceFrom_bcast_getElem? hp]

/-! No CHAN byte yet (R85) -/

theorem latchFrom_bcast_of_no_chan {bs : List Byte} (h : ∀ b ∈ bs, classOf b ≠ .chan) :
    latchFrom .bcast bs = .bcast := by
  induction bs with
  | nil => rfl
  | cons b bs ih =>
    obtain ⟨hhead, htail⟩ := List.forall_mem_cons.mp h
    rw [latchFrom_cons, classify_bcast_of_not_chan hhead, ih htail]

theorem traceFrom_bcast_of_no_chan {ps : List (Byte × Sel)} (h : ∀ b ∈ ps.map Prod.fst, classOf b ≠ .chan) :
    traceFrom .bcast ps = (ps.map Prod.fst).map fun b => ⟨0b1111#4, b⟩ := by
  induction ps with
  | nil => rfl
  | cons p ps ih =>
    obtain ⟨hhead, htail⟩ := List.forall_mem_cons.mp h
    rw [traceFrom_cons, classify_bcast_of_not_chan hhead, ih htail]
    rfl

/-- Settles O43: the bytes fed hold no CHAN byte, so none of them is routed or latched to a channel. -/
theorem everythingIsBroadcastUntilAChanByte : Obligations.EverythingIsBroadcastUntilAChanByte := by
  intro p es hes hclass
  have no_chan : ∀ b ∈ bytesFed es, classOf b ≠ .chan := forall_mem_bytesFed hclass
  obtain ⟨t, hrun, hlatch, hout⟩ := runEdges_latch_and_trace (State.resetWith p) es hes
  refine ⟨rfl, t, hrun, ?latch, ?trace⟩
  case latch => exact hlatch.trans (latchFrom_bcast_of_no_chan no_chan)
  case trace =>
    rw [← map_fst_fed (State.resetWith p).cfg.cfgInvert] at no_chan ⊢
    exact hout.trans (traceFrom_bcast_of_no_chan no_chan)

end Sys2Proof.Machine

/-! PROOFS. The port mapper family (spec/42_port_mapper.md): DECIDE port by port and in closed form, the six patterns,
the window miss, and the gate-level core. -/

namespace Sys2Proof.Machine

/-! The gate-level reading of a route and of a byte (R11, R93) -/

theorem routeBits_getLsbD_four (r : Route) : (routeBits r).getLsbD 4 = flagB r := by
  rw [routeBits, BitVec.getLsbD_append]
  exact BitVec.getLsbD_ofBool (flagB r) 0

theorem routeBits_extract_channel (r : Route) : (routeBits r).extractLsb' 0 4 = fieldCh r :=
  BitVec.extractLsb'_append_eq_right

/-- The gates' status bit: `b[7]` is set from 0x80 on. -/
theorem getLsbD_seven_eq_ge_80 (b : Byte) : b.getLsbD 7 = decide (0x80#8 ≤ b) := by
  have hb : b.toNat < 256 := b.isLt
  rw [← BitVec.testBit_toNat, Nat.testBit_eq_decide_div_mod_eq, decide_eq_decide, BitVec.le_def,
    BitVec.toNat_ofNat]
  omega

/-- The gates' system test: the high nibble is all ones from 0xF0 on. -/
theorem high_nibble_eq_ge_F0 (b : Byte) : (b.extractLsb' 4 4 == 0b1111#4) = decide (0xF0#8 ≤ b) := by
  have hb : b.toNat < 256 := b.isLt
  rw [Bool.beq_eq_decide_eq, decide_eq_decide, ← BitVec.toNat_inj, BitVec.extractLsb'_toNat,
    Nat.shiftRight_eq_div_pow, BitVec.le_def, BitVec.toNat_ofNat, BitVec.toNat_ofNat]
  omega

/-- Among the system bytes `b[3]` tells SYSRT from SYSCOM. -/
theorem getLsbD_three_eq_ge_F8 {b : Byte} (hF0 : 0xF0#8 ≤ b) : b.getLsbD 3 = decide (0xF8#8 ≤ b) := by
  have hb : b.toNat < 256 := b.isLt
  rw [BitVec.le_def, BitVec.toNat_ofNat] at hF0
  rw [← BitVec.testBit_toNat, Nat.testBit_eq_decide_div_mod_eq, decide_eq_decide, BitVec.le_def,
    BitVec.toNat_ofNat]
  omega

/-- The next-state logic of R93, range by range of R84: system bytes clear the route's channel and set its flag, and
only SYSCOM loads that into the latch. -/
theorem gateLatch_routeBits (b : Byte) (r : Route) :
    gateLatch b (routeBits r) = (routeBits (classify b r).1, routeBits (classify b r).2) := by
  simp only [gateLatch, routeBits_getLsbD_four, routeBits_extract_channel, getLsbD_seven_eq_ge_80,
    high_nibble_eq_ge_F0]
  by_cases hF0 : 0xF0#8 ≤ b
  · have h80 : 0x80#8 ≤ b := BitVec.le_trans (by decide) hF0
    rw [getLsbD_three_eq_ge_F8 hF0]
    by_cases hF8 : 0xF8#8 ≤ b <;>
    · simp only [classify, hF8, hF0, h80]
      rfl
  · have hF8 : ¬ 0xF8#8 ≤ b := not_le_of_le_of_not_le (by decide) hF0
    by_cases h80 : 0x80#8 ≤ b <;>
    · simp only [classify, hF8, hF0, h80]
      rfl

/-! The mapper on the two buses (R64, R78, R109) -/

/-- Two selector bits above the two bits of `i` are the number `4*s + i` (R78). -/
theorem lut_eq_append (sel : Sel) (i : Port) : lut sel i = sel ++ BitVec.ofNat 2 i.val := by
  rw [← BitVec.toNat_inj, lut_toNat, toNat_append_eq_add, BitVec.toNat_ofNat]
  omega

/-- The wiring of the window bus, for each of the four selectors at each of the four ports. -/
theorem busEntry_windowBus (sel : Sel) (i : Port) : busEntry (windowBus sel) i = lut sel i := by
  revert sel i; decide

theorem gateDecide_routeBits (r : Route) (sel : Sel) :
    gateDecide (routeBits r) (windowBus sel) = decidePorts r (windowOf sel) := by
  cases r with
  | bcast => rfl
  | ch c =>
    rw [gateDecide, routeBits_getLsbD_four, routeBits_extract_channel]
    simp only [busEntry_windowBus]
    rfl

/-! The gate-level core (R112) -/

theorem toGates_step (a : Arch) (x : AbsStep) :
    a.toGates.step x = ((a.step x).1.toGates, (a.step x).2) := by
  cases x with
  | byte b sel => simp only [GateState.step, Arch.step, Arch.toGates, gateLatch_routeBits, gateDecide_routeBits]
  | idle sel => rfl

theorem GateState.run_cons (g : GateState) (x : AbsStep) (xs : List AbsStep) :
    g.run (x :: xs) = (((g.step x).1.run xs).1, (g.step x).2 ++ ((g.step x).1.run xs).2) := rfl

/-- Settles O47, by induction on the run: the registers after each step hold the abstract state after it. -/
theorem gateLevelCoreSimulatesTheAbstractOne : Obligations.GateLevelCoreSimulatesTheAbstractOne := by
  intro a xs
  induction xs generalizing a with
  | nil => rfl
  | cons x xs ih => rw [GateState.run_cons, Arch.run_cons, toGates_step, ih]

/-! DECIDE in closed form (R100, R103, R104) -/

/-- Settles O9: the one-hot form and DECIDE agree at every port. -/
theorem enablesAreOneHotGatedByHit : Obligations.EnablesAreOneHotGatedByHit := decidePorts_windowOf

theorem decidePorts_of_miss {c : Chan} {w : Window} (h : ∀ i : Port, w[i] ≠ c) :
    decidePorts (.ch c) w = 0b0000#4 := by
  refine BitVec.eq_of_getLsbD_eq fun i hi => ?_
  have at_port := decidePorts_ch_getLsbD c w ⟨i, hi⟩
  rw [beq_eq_false_iff_ne.mpr (h ⟨i, hi⟩)] at at_port
  rw [at_port, BitVec.getLsbD_zero]

/-- The channel of entry `i` has the selector as its high half and `i` as its low half, so its one-hot is port `i`. -/
theorem decidePorts_of_hit (sel : Sel) (i : Port) :
    decidePorts (.ch (lut sel i)) (windowOf sel) = 0b0001#4 <<< i.val := by
  obtain ⟨high_half, low_half⟩ := (lut_eq_iff sel i (lut sel i)).mp rfl
  rw [decidePorts_windowOf, onehotEnables, if_pos high_half, BitVec.shiftLeft_eq', low_half]

/-- Settles O8: BROADCAST does not look at the window; the other clauses are one port, the hit and the miss. -/
theorem decideEnablesExactlyTheMatchingPort : Obligations.DecideEnablesExactlyTheMatchingPort :=
  ⟨fun _ => rfl, fun c w i _ => decidePorts_ch_getLsbD c w i, decidePorts_of_hit, fun _ _ => decidePorts_of_miss⟩

theorem onehotEnables_mem_sixPatterns (r : Route) (sel : Sel) : onehotEnables r sel ∈ sixPatterns := by
  have one_hot : ∀ x : BitVec 2, 0b0001#4 <<< x ∈ sixPatterns := by decide
  cases r with
  | bcast => exact List.mem_cons_self
  | ch c =>
    rw [onehotEnables]
    split
    · exact one_hot _
    · decide

theorem decidePorts_mem_sixPatterns (r : Route) (sel : Sel) : decidePorts r (windowOf sel) ∈ sixPatterns := by
  rw [decidePorts_windowOf]
  exact onehotEnables_mem_sixPatterns r sel

/-- Settles O20: an instruction's enables are DECIDE on the window of the selector present. -/
theorem enablesAreOneOfSixPatterns : Obligations.EnablesAreOneOfSixPatterns := by
  intro i s t hexec
  obtain ⟨r, rs', rfl, -⟩ := exec_cases hexec
  rw [(byteStep_effect r rs' (encode i) s).oe]
  exact decidePorts_mem_sixPatterns r s.sel

/-! The window miss (R102) -/

/-- A channel whose high half is not the selector is in no entry of the selector's window. -/
theorem decidePorts_windowOf_of_miss {c : Chan} {sel : Sel} (h : c.extractLsb' 2 2 ≠ sel) :
    decidePorts (.ch c) (windowOf sel) = 0b0000#4 := by
  rw [decidePorts_windowOf, onehotEnables, if_neg h]

/-- A byte routed and latched to a channel outside the window is emitted with no port enabled. -/
theorem exec_decodeByte_of_miss {b : Byte} {c : Chan} {s : State} (hroute : classify b s.rs = (.ch c, .ch c))
    (hmiss : c.extractLsb' 2 2 ≠ s.sel) :
    ∃ t, exec (decodeByte b) s = .next t ∧ t.oe = 0b0000#4 ∧ t.rs = .ch c ∧ t.out = s.out ++ [⟨0b0000#4, b⟩] := by
  have effect := byteStep_effect (.ch c) (.ch c) b s
  have no_port := decidePorts_windowOf_of_miss hmiss
  refine ⟨byteStep (.ch c) (.ch c) b s, ?_, ?_, effect.rs, ?_⟩
  · rw [exec_decodeByte, hroute]
  · rw [effect.oe, no_port]
  · rw [effect.out, no_port]

/-- Settles O19: CLASSIFY routes a CHAN byte to its low nibble, and a DATA byte to the latch. -/
theorem missDisablesAllPorts : Obligations.MissDisablesAllPorts := by
  intro s c hmiss
  refine ⟨fun b hclass hchan => ?chan, fun hlatch b hclass => ?data⟩
  case chan => exact exec_decodeByte_of_miss (by simp only [classify_of_classOf, hclass, hchan]) hmiss
  case data => exact exec_decodeByte_of_miss (by simp only [classify_of_classOf, hclass, hlatch]) hmiss

end Sys2Proof.Machine

/-! PROOFS. The byte step family (spec/43_byte_step.md): the BYTE step as a whole-state equation, the invariant of every
step, and the clocked machine as a realisation of the abstract one. -/

namespace Sys2Proof.Machine

/-! The BYTE step (R110, R115) -/

/-- DECIDE on the window resolved is the one-hot of R104, so the BYTE step is the spec's closed form. -/
theorem byteStep_eq_afterByte (r rs' : Route) (b : Byte) (s : State) :
    byteStep r rs' b s = afterByte s r rs' b := by
  rw [byteStep_eq, decidePorts_windowOf, afterByte]

/-- Settles O17: the class picks the route and the latch, and the closed form of the BYTE step does the rest. -/
theorem byteStepByClass : Obligations.ByteStepByClass := by
  intro b s
  rw [exec_decodeByte, classify_of_classOf, byteStep_eq_afterByte]
  cases classOf b with
  | data | chan | syscom | sysrt => rfl

/-- Settles O23: the step runs the byte presented, which is the BYTE step of what CLASSIFY answers, in the state whose
pins are sampled. -/
theorem byteStepResolvesClassifiesDecidesDrivesEmits :
    Obligations.ByteStepResolvesClassifiesDecidesDrivesEmits := by
  intro s e rest hinputs hrst hvalid
  have runs_byte := stepRunsTheDecodedByte s e rest hinputs hrst hvalid
  rw [exec_decodeByte] at runs_byte
  have effect := byteStep_effect (classify e.rxByte s.rs).1 (classify e.rxByte s.rs).2 e.rxByte
    { s with inputs := rest, cfgPin := e.cfgPin }
  have emitted := effect.out
  rw [← effect.oe] at emitted
  exact ⟨_, runs_byte, effect.wsel, effect.inputs, effect.rs, effect.oe, rfl, emitted, effect.n, effect.cfg,
    effect.cfgPin, effect.tx, effect.freeIdx⟩

/-! The invariant where a run begins (R118, R150) -/

/-- A state with the reset enables, nothing waiting and empty records, as power-on and a reset edge both leave it. -/
theorem inv_of_run_begins {s : State} (hwf : s.cfg.wf = true) (hoe : s.oe = s.cfg.resetEn) (hn : s.n = 0)
    (htxp : s.txp = 0) (hpulse : s.txValid = false) (hout : s.out = []) (htx : s.tx = []) : Inv s where
  params := hwf
  counter := by simp [htxp]
  pulse := fun _ => htxp
  index := by simp [hn, hout]
  enables := by simp [hoe, hout]
  byte := by simp [hout]
  patterns := by simp [hout]
  echoed := by simp [htx]
  waits := by simp [htxp]
  shown := by simp [hpulse]

theorem inv_resetWith {p : Config.Params} (hwf : p.wf = true) : Inv (State.resetWith p) :=
  inv_of_run_begins hwf rfl rfl rfl rfl rfl rfl

/-- Settles O33: power-on begins a run, and the default settle time is 1. -/
theorem invariantHoldsAtReset : Obligations.InvariantHoldsAtReset :=
  ⟨fun _ => inv_resetWith, inv_resetWith (by decide)⟩

/-! What the invariant says of the echo (R122, R127) -/

theorem Inv.settle_pos {s : State} (h : Inv s) : 0 < s.cfg.settleCycles := of_decide_eq_true h.params

theorem Inv.tx_sublist_out {s : State} (h : Inv s) : s.tx.Sublist s.out := by
  have echoed := h.echoed
  split at echoed
  · exact echoed.trans (List.dropLast_sublist s.out)
  · exact echoed

/-- The pair that waits is the pair decided last: its byte is in `TXB`, and its enables are on the pins. -/
theorem Inv.getLast?_out_of_waiting {s : State} (h : Inv s) (hwait : 0 < s.txp) :
    s.out.getLast? = some ⟨s.oe, s.txb⟩ := by
  have last := List.getLast?_eq_some_getLast (h.waits hwait)
  have enables := h.enables
  rw [last, Option.map_some, Option.getD_some] at enables
  rw [last, enables, h.byte _ last]

/-- The pairs that have left end before the pair that waits, so with it they are still in order. -/
theorem Inv.tx_append_waiting_sublist_out {s : State} (h : Inv s) (hwait : 0 < s.txp) :
    List.Sublist (s.tx ++ [⟨s.oe, s.txb⟩]) s.out := by
  have echoed := h.echoed
  rw [if_pos hwait] at echoed
  rw [← List.dropLast_append_getLast? _ (h.getLast?_out_of_waiting hwait)]
  exact echoed.append_right _

/-! Each of the three steps keeps the invariant (R118) -/

/-- No clause of the invariant reads the switches or the inputs to come. -/
theorem inv_sample {s : State} (h : Inv s) : Inv s.sample :=
  ⟨h.params, h.counter, h.pulse, h.index, h.enables, h.byte, h.patterns, h.echoed, h.waits, h.shown⟩

theorem inv_resetStep {s : State} (h : Inv s) : Inv (resetStep s) :=
  inv_of_run_begins h.params rfl rfl rfl rfl rfl rfl

/-- The new pair is last and waits; the pairs that have left are among those before it, as is the one it overwrites
where a byte came early (entry 13). -/
theorem inv_byteStep {s : State} (h : Inv s) (r rs' : Route) (b : Byte) : Inv (byteStep r rs' b s) where
  params := h.params
  counter := Nat.le_refl _
  pulse := fun hpulse => absurd hpulse Bool.false_ne_true
  index := by simp [byteStep_eq, h.index]
  enables := by simp [byteStep_eq]
  byte := by simp [byteStep_eq]
  patterns := List.forall_mem_append.mpr
    ⟨h.patterns, List.forall_mem_singleton.mpr (decidePorts_mem_sixPatterns r s.sel)⟩
  echoed := by simpa [byteStep_eq, h.settle_pos] using h.tx_sublist_out
  waits := by simp [byteStep_eq]
  shown := fun hpulse => absurd hpulse Bool.false_ne_true

/-- At an IDLE step nothing leaves, or the counter goes from 1 to 0 and what leaves is the pair that waits. -/
theorem idleStep_echoed {s : State} (h : Inv s) :
    (idleStep s).tx.Sublist (if 0 < (idleStep s).txp then (idleStep s).out.dropLast else (idleStep s).out) := by
  have htxp : s.txp = 0 ∨ s.txp = 1 ∨ 1 < s.txp := by omega
  rcases htxp with h0 | h1 | h2
  · simpa [idleStep_eq, h0] using h.tx_sublist_out
  · simpa [idleStep_eq, h1] using h.tx_append_waiting_sublist_out (by omega)
  · have still_waits : 0 < s.txp - 1 := by omega
    have echoed := h.echoed
    rw [if_pos (by omega)] at echoed
    simpa [idleStep_eq, still_waits, h2.ne'] using echoed

/-- The pulse of `tx_valid` begins where the counter goes from 1 to 0 (R123). -/
theorem idleStep_txValid_iff (s : State) : (idleStep s).txValid = true ↔ s.txp = 1 := beq_iff_eq

theorem inv_idleStep {s : State} (h : Inv s) : Inv (idleStep s) where
  params := h.params
  counter := (Nat.sub_le _ _).trans h.counter
  pulse := fun hpulse => by simp [idleStep_eq, (idleStep_txValid_iff s).mp hpulse]
  index := h.index
  enables := h.enables
  byte := h.byte
  patterns := h.patterns
  echoed := idleStep_echoed h
  waits := fun hwait => h.waits (hwait.trans_le (Nat.sub_le _ _))
  shown := fun hpulse => by simp [idleStep_eq, (idleStep_txValid_iff s).mp hpulse]

/-- Settles O34: a step is a reset, a BYTE step or an IDLE step, in the state whose pins are sampled. -/
theorem everyStepKeepsTheInvariant : Obligations.EveryStepKeepsTheInvariant := by
  intro s t h hstep
  rcases step_cases hstep with ⟨-, rfl⟩ | ⟨-, -, hexec⟩ | ⟨-, -, rfl⟩
  · exact inv_resetStep (inv_sample h)
  · obtain ⟨r, rs', rfl, -⟩ := exec_cases hexec
    exact inv_byteStep (inv_sample h) r rs' _
  · exact inv_idleStep (inv_sample h)

/-! The clocked machine as a realisation of the abstract one (R112, R127) -/

/-- Settles O35, by the induction over edges without reset: each clocked step is the abstract step of its edge
(`step_refines_absStep`), which adds to the output stream what the abstract step emits. -/
theorem clockedMachineRefinesTheAbstractOne : Obligations.ClockedMachineRefinesTheAbstractOne :=
  runEdges_refinesRun

end Sys2Proof.Machine

/-! PROOFS. The exceptions family (spec/60_exceptions.md): no run stops, and realtime bytes are transparent. -/

namespace Sys2Proof.Machine

/-! Every run goes on (R130) -/

theorem stepN_succ_of_step {s t : State} (h : step s = .next t) (k : Nat) : stepN (k + 1) s = stepN k t := by
  rw [stepN, h]

theorem stepN_total (k : Nat) (s : State) : ∃ t, stepN k s = .next t := by
  induction k generalizing s with
  | zero => exact ⟨s, rfl⟩
  | succ k ih =>
    obtain ⟨u, hstep⟩ := step_total s
    obtain ⟨t, hrun⟩ := ih u
    exact ⟨t, (stepN_succ_of_step hstep k).trans hrun⟩

/-- Settles O31: the type of faults has no value, and no step of a run is refused. -/
theorem everyRunAnswersANextState : Obligations.EveryRunAnswersANextState :=
  ⟨nofun, stepN_total⟩

/-! Realtime bytes turned into silence (R61, R133, R136) -/

/-- The byte is of any class but SYSRT. -/
def notRealtime (b : Byte) : Bool := decide (classOf b ≠ .sysrt)

theorem notRealtime_eq_true_iff (b : Byte) : notRealtime b = true ↔ classOf b ≠ .sysrt := decide_eq_true_iff

theorem notRealtime_eq_false_iff (b : Byte) : notRealtime b = false ↔ classOf b = .sysrt := by
  rw [notRealtime, decide_eq_false_iff_not, not_not]

/-- The edge with its byte taken back where that byte is a SYSRT byte. -/
def Edge.silenceRealtime (e : Edge) : Edge :=
  if classOf e.rxByte = .sysrt then { e with rxValid := false } else e

theorem silenceRealtime_rst (e : Edge) : e.silenceRealtime.rst = e.rst := by
  rw [Edge.silenceRealtime]
  split <;> rfl

theorem noReset_map_silenceRealtime {es : List Edge} (hes : NoReset es) :
    NoReset (es.map Edge.silenceRealtime) :=
  List.forall_mem_map.mpr fun e he => (silenceRealtime_rst e).trans (hes e he)

/-- Silencing takes the SYSRT bytes out of what is fed, and leaves every other byte its selector. -/
theorem fed_map_silenceRealtime (invert : Bool) (es : List Edge) :
    fed invert (es.map Edge.silenceRealtime) = (fed invert es).filter fun p => notRealtime p.1 := by
  induction es with
  | nil => rfl
  | cons e es ih =>
    rw [List.map_cons, fed, fed, ih]
    by_cases hclass : classOf e.rxByte = .sysrt
    · have dropped := (notRealtime_eq_false_iff e.rxByte).mpr hclass
      cases hvalid : e.rxValid <;> simp [Edge.silenceRealtime, hclass, dropped]
    · have kept := (notRealtime_eq_true_iff e.rxByte).mpr hclass
      cases hvalid : e.rxValid <;> simp [Edge.silenceRealtime, hclass, hvalid, kept]

theorem bytesFed_map_silenceRealtime (es : List Edge) :
    bytesFed (es.map Edge.silenceRealtime) = (bytesFed es).filter notRealtime := by
  rw [bytesFed, bytesFed, fed_map_silenceRealtime, List.filter_map]
  rfl

/-! The latch and the other pairs without the realtime bytes (R83) -/

theorem classify_latch_of_sysrt {b : Byte} (h : classOf b = .sysrt) (rs : Route) : (classify b rs).2 = rs := by
  rw [classify_of_classOf, h]

/-- The latch goes past a SYSRT byte as it is, so the bytes without them leave the same latch. -/
theorem latchFrom_filter_notRealtime (rs : Route) (bs : List Byte) :
    latchFrom rs (bs.filter notRealtime) = latchFrom rs bs := by
  induction bs generalizing rs with
  | nil => rfl
  | cons b bs ih =>
    cases hb : notRealtime b with
    | true => rw [List.filter_cons_of_pos hb, latchFrom_cons, ih, latchFrom_cons]
    | false =>
      rw [List.filter_cons_of_neg (by simp [hb]), ih, latchFrom_cons,
        classify_latch_of_sysrt ((notRealtime_eq_false_iff b).mp hb)]

/-- Every other byte meets the latch it met among the SYSRT bytes, so its pair is the same. -/
theorem traceFrom_filter_notRealtime (rs : Route) (ps : List (Byte × Sel)) :
    traceFrom rs (ps.filter fun p => notRealtime p.1) = (traceFrom rs ps).filter fun x => notRealtime x.byte := by
  induction ps generalizing rs with
  | nil => rfl
  | cons p ps ih =>
    cases hp : notRealtime p.1 with
    | true => simp [emitUnder, hp, ih]
    | false =>
      have latch_kept := classify_latch_of_sysrt ((notRealtime_eq_false_iff p.1).mp hp) rs
      simp [emitUnder, hp, ih, latch_kept]

/-- Settles O45: a run ends with the latch and the pairs of the bytes fed, and silencing only takes the SYSRT bytes out
of these. -/
theorem realtimeBytesAreTransparent : Obligations.RealtimeBytesAreTransparent := by
  intro s es hes
  obtain ⟨t, hrun, hlatch, hout⟩ := runEdges_latch_and_trace s es hes
  obtain ⟨u, hrun', hlatch', hout'⟩ :=
    runEdges_latch_and_trace s (es.map Edge.silenceRealtime) (noReset_map_silenceRealtime hes)
  refine ⟨t, u, hrun, hrun', ?latch, ?trace⟩
  case latch => rw [hlatch', hlatch, bytesFed_map_silenceRealtime, latchFrom_filter_notRealtime]
  case trace =>
    rw [hout', hout, List.drop_left, fed_map_silenceRealtime, traceFrom_filter_notRealtime]
    rfl

end Sys2Proof.Machine

/-! PROOFS. The reset and hazards family (spec/70_reset_and_hazards.md): how the echo counts down, how long a window miss
lasts, what an edge without a byte leaves alone, and what a reset loses. -/

namespace Sys2Proof.Machine

/-! The echo after the decision (R121, R123, R160) -/

/-- An edge that presents a byte leaves the closed form of the BYTE step, on the pins sampled with it (R110, R121). -/
theorem step_byteEdge_eq_afterByte {s : State} {e : Edge} (es : List Edge) (hrst : e.rst = false)
    (hvalid : e.rxValid = true) :
    step { s with inputs := e :: es } =
      .next (afterByte { s with inputs := es, cfgPin := e.cfgPin } (classify e.rxByte s.rs).1
        (classify e.rxByte s.rs).2 e.rxByte) := by
  rw [stepRunsTheDecodedByte { s with inputs := e :: es } e es rfl hrst hvalid, exec_decodeByte,
    byteStep_eq_afterByte]

/-- What `k` IDLE steps do to the echo: the pair on the pins is held, the counter goes down by `k`, the last step gives
the pulse where the counter was `k`, and what has left or still waits is as before. -/
structure CountsDown (s : State) (k : Nat) (t : State) : Prop where
  oe : t.oe = s.oe
  txb : t.txb = s.txb
  txp : t.txp = s.txp - k
  txValid : t.txValid = if k = 0 then s.txValid else s.txp == k
  echoes : t.echoes = s.echoes

theorem countsDown_zero (s : State) (es : List Edge) : CountsDown s 0 { s with inputs := es } :=
  ⟨rfl, rfl, rfl, rfl, rfl⟩

/-- One IDLE step, and then `k`. -/
theorem countsDown_succ {s t : State} {k : Nat} (h : CountsDown (idleStep s) k t) : CountsDown s (k + 1) t where
  oe := h.oe
  txb := h.txb
  txp := by
    have rest : t.txp = s.txp - 1 - k := h.txp
    omega
  txValid := by
    have rest : t.txValid = if k = 0 then s.txp == 1 else s.txp - 1 == k := h.txValid
    cases k with
    | zero => exact rest
    | succ k =>
      have one_more : s.txp - 1 = k + 1 ↔ s.txp = k + 1 + 1 := by omega
      simpa [Bool.beq_eq_decide_eq, one_more] using rest
  echoes := h.echoes.trans (echoes_idleStep s)

/-- An edge with neither reset nor byte is an IDLE step, and the echo reads neither switches nor inputs to come. -/
theorem countsDown_cons {s u t : State} {q : Edge} {es : List Edge} {k : Nat}
    (hstep : step { s with inputs := q :: es } = .next u) (hrst : q.rst = false) (hsilent : q.rxValid = false)
    (h : CountsDown u k t) : CountsDown s (k + 1) t := by
  rcases step_cases_of_noReset hstep hrst with ⟨hvalid, -⟩ | ⟨-, rfl⟩
  · exact absurd (hsilent.symm.trans hvalid) Bool.false_ne_true
  · obtain ⟨hoe, htxb, htxp, htxValid, hechoes⟩ := countsDown_succ h
    exact ⟨hoe, htxb, htxp, htxValid, hechoes⟩

theorem runEdges_countsDown (s : State) (quiet : List Edge)
    (hquiet : ∀ q ∈ quiet, q.rst = false ∧ q.rxValid = false) :
    ∃ t, runEdges s quiet = .next t ∧ CountsDown s quiet.length t := by
  induction quiet generalizing s with
  | nil => exact ⟨_, runEdges_nil s, countsDown_zero s []⟩
  | cons q quiet ih =>
    obtain ⟨⟨hrst, hsilent⟩, hrest⟩ := List.forall_mem_cons.mp hquiet
    obtain ⟨u, hstep⟩ := step_total { s with inputs := q :: quiet }
    obtain ⟨t, hrun, hcounts⟩ := ih u hrest
    exact ⟨t, (runEdges_cons_of_step hstep).trans hrun, countsDown_cons hstep hrst hsilent hcounts⟩

theorem runEdges_countsDown_of_step {s u : State} {e : Edge} {quiet : List Edge}
    (hstep : step { s with inputs := e :: quiet } = .next u) (hquiet : ∀ q ∈ quiet, q.rst = false ∧ q.rxValid = false) :
    ∃ t, runEdges s (e :: quiet) = .next t ∧ CountsDown u quiet.length t := by
  rw [runEdges_cons_of_step hstep]
  exact runEdges_countsDown u quiet hquiet

/-- While the counter is up nothing has left, and once it is down the waiting pair has. -/
theorem CountsDown.tx {s t : State} {k : Nat} (h : CountsDown s k t) (hwaits : 0 < s.txp) :
    t.tx = s.tx ++ if s.txp ≤ k then [⟨s.oe, s.txb⟩] else [] := by
  have echoes := h.echoes
  rw [State.echoes, State.echoes, pending, pending, if_pos hwaits, h.txp, h.oe, h.txb] at echoes
  by_cases hdown : s.txp ≤ k
  · simpa [hdown, Nat.sub_eq_zero_of_le hdown] using echoes
  · have still_waits : 0 < s.txp - k := by omega
    rw [if_pos still_waits] at echoes
    rw [if_neg hdown, List.append_nil, List.append_cancel_right echoes]

/-- With the pulse low and a pair waiting, the pulse is high exactly after as many IDLE steps as the counter holds. -/
theorem CountsDown.txValid_iff {s t : State} {k : Nat} (h : CountsDown s k t) (hwaits : 0 < s.txp)
    (hlow : s.txValid = false) : t.txValid = true ↔ k = s.txp := by
  rw [h.txValid]
  cases k with
  | zero => simp [hlow, hwaits.ne]
  | succ k => rw [if_neg (Nat.succ_ne_zero k), beq_iff_eq, eq_comm]

/-- Settles O37: the accepting edge loads the counter with `SETTLE_CYCLES`, and each quiet edge takes one off. That
nothing waits at that edge is not used: the model overwrites a byte that does (entry 13). -/
theorem echoComesSettleCyclesAfterTheDecision : Obligations.EchoComesSettleCyclesAfterTheDecision := by
  intro s e quiet hwf _ hrst hvalid hquiet
  have settle_pos : 0 < s.cfg.settleCycles := of_decide_eq_true hwf
  obtain ⟨t, hrun, hcounts⟩ := runEdges_countsDown_of_step (step_byteEdge_eq_afterByte quiet hrst hvalid) hquiet
  have decided := hcounts.oe
  have left := hcounts.tx settle_pos
  rw [← decided] at left
  exact ⟨t, hrun, decided, hcounts.txValid_iff settle_pos rfl, hcounts.txb, left⟩

/-! The window miss (R164, R167) -/

theorem forall_mem_fed {P : Byte × Sel → Prop} {invert : Bool} {es : List Edge}
    (h : ∀ e ∈ es, e.rxValid = true → P (e.rxByte, selOfPins invert e.cfgPin)) :
    ∀ p ∈ fed invert es, P p := by
  induction es with
  | nil => exact fun p hp => absurd hp List.not_mem_nil
  | cons e es ih =>
    obtain ⟨hhead, htail⟩ := List.forall_mem_cons.mp h
    rw [fed]
    split
    · exact List.forall_mem_cons.mpr ⟨hhead ‹_›, ih htail⟩
    · exact ih htail

theorem classify_of_data {b : Byte} (h : classOf b = .data) (rs : Route) : classify b rs = (rs, rs) := by
  rw [classify_of_classOf, h]

theorem latchFrom_of_data {rs : Route} {bs : List Byte} (h : ∀ b ∈ bs, classOf b = .data) : latchFrom rs bs = rs := by
  induction bs with
  | nil => rfl
  | cons b bs ih =>
    obtain ⟨hhead, htail⟩ := List.forall_mem_cons.mp h
    rw [latchFrom_cons, classify_of_data hhead, ih htail]

/-- DATA bytes that come with the latched channel outside the window all leave with no port enabled. -/
theorem traceFrom_of_data_misses {c : Chan} {ps : List (Byte × Sel)}
    (h : ∀ p ∈ ps, classOf p.1 = .data ∧ p.2 ≠ c.extractLsb' 2 2) :
    traceFrom (.ch c) ps = (ps.map Prod.fst).map fun b => ⟨0b0000#4, b⟩ := by
  induction ps with
  | nil => rfl
  | cons p ps ih =>
    obtain ⟨⟨hdata, hmiss⟩, htail⟩ := List.forall_mem_cons.mp h
    rw [traceFrom_cons, classify_of_data hdata, ih htail, emitUnder, decidePorts_windowOf_of_miss hmiss.symm]
    rfl

/-- Settles O44: a DATA byte keeps the latch, so each next one meets the same channel, outside its window too. -/
theorem aWindowMissLasts : Obligations.AWindowMissLasts := by
  intro s es c hlatched hes hmisses
  obtain ⟨t, hrun, hlatch, hout⟩ := runEdges_latch_and_trace s es hes
  rw [hlatched] at hlatch hout
  refine ⟨t, hrun, ?latch, ?trace⟩
  case latch =>
    exact hlatch.trans (latchFrom_of_data (forall_mem_bytesFed fun e he hvalid => (hmisses e he hvalid).1))
  case trace => rw [hout, traceFrom_of_data_misses (forall_mem_fed hmisses), map_fst_fed]

/-! An edge without a byte (R122, R163) -/

/-- Settles O29: without reset and byte the step is an IDLE step, which writes `WSEL` and the echo's counter, pulse and
record alone. -/
theorem enablesMoveOnlyWhenAByteIsAccepted : Obligations.EnablesMoveOnlyWhenAByteIsAccepted := by
  intro s t hstep hrst hsilent
  rcases step_cases_of_noReset hstep hrst with ⟨hvalid, -⟩ | ⟨-, rfl⟩
  · exact absurd (hsilent.symm.trans hvalid) Bool.false_ne_true
  · exact ⟨rfl, rfl, rfl, rfl, rfl, rfl⟩

/-! Reset in mid-message (R124, R155) -/

/-- Reset wins over a byte presented at the same edge (R124). -/
theorem step_of_rst {s : State} (hrst : s.nextEdge.rst = true) : step s = .next (resetStep s.sample) := by
  rw [step, clockEdge, if_pos hrst]

/-- Settles O32: the reset edge leaves a BROADCAST latch and an empty record, and CLASSIFY then answers a DATA byte with
BROADCAST, twice. -/
theorem resetLosesTheRunningStatus : Obligations.ResetLosesTheRunningStatus := by
  intro s e1 e2 rest hinputs hreset hrst hvalid hdata
  have resets : step s = .next (resetStep s.sample) := step_of_rst (by rwa [nextEdge_cons hinputs])
  have inputs_left : (resetStep s.sample).inputs = e2 :: rest := by
    rw [resetStep_inputs, State.sample_inputs, hinputs, List.tail_cons]
  have broadcast : classify e2.rxByte (resetStep s.sample).rs = (.bcast, .bcast) := classify_of_data hdata .bcast
  obtain ⟨t, accepts, -, -, hrs, hoe, -, hout, -⟩ :=
    byteStepResolvesClassifiesDecidesDrivesEmits (resetStep s.sample) e2 rest inputs_left hrst hvalid
  rw [broadcast] at hrs hoe
  rw [hoe] at hout
  refine ⟨t, ?two_steps, hrs, hoe, hout⟩
  case two_steps => rw [stepN_succ_of_step resets, stepN_succ_of_step accepts, stepN]

end Sys2Proof.Machine

/-! PROOFS. The remaining statements: the gate-level latch, the bit patterns of bytes, pins and routes, the edges that
present no byte, reset, and the parameters. -/

namespace Sys2Proof.Machine

/-! The latch in gates, and DECIDE on any window (R93, R100) -/

/-- Settles O46: the next-state logic agrees with CLASSIFY in each range of R84. -/
theorem gateLatchComputesClassify : Obligations.GateLatchComputesClassify := gateLatch_routeBits

/-- Settles O48: one comparison per entry, whatever the other entries are. -/
theorem decideComparesEachEntryOfAnyWindow : Obligations.DecideComparesEachEntryOfAnyWindow := decidePorts_ch_getLsbD

/-! A word of eight bits as one instruction (R50, R51) -/

theorem decodeTableWord_eight (w : Nat) : decodeTableWord 8 w = some (decodeByte (BitVec.ofNat 8 w)) := rfl

theorem decodeTableWord_encode (i : Instr) : decodeTableWord 8 (encode i).toNat = some i := by
  rw [decodeTableWord_eight, BitVec.ofNat_toNat, BitVec.setWidth_eq, decodeByte_encode]

/-- Settles O4: each number written out is the encoding of the instruction beside it. -/
theorem writtenOutBytesDecode : Obligations.WrittenOutBytesDecode :=
  ⟨decodeTableWord_encode (.data 0b0111100#7), decodeTableWord_encode (.chan8 0#4),
    decodeTableWord_encode (.chan9 1#4), decodeTableWord_encode (.chanA 15#4),
    decodeTableWord_encode (.chanB 7#4), decodeTableWord_encode (.chanC 5#4),
    decodeTableWord_encode (.chanD 10#4), decodeTableWord_encode (.chanE 15#4),
    decodeTableWord_encode (.syscom 2#3), decodeTableWord_encode (.sysrt 2#3)⟩

/-- The edge the host places presents the word's byte, the switches as they stand (entry 1). -/
theorem placedEdge_eight (w : Nat) (pin : BitVec 2) :
    placedEdge 8 w pin = { rst := false, rxValid := true, rxByte := BitVec.ofNat 8 w, cfgPin := pin } := rfl

/-- Settles O22: the edge placed presents the byte, and sampling takes the edge off again and leaves the switches. -/
theorem placedWordRunsNext : Obligations.PlacedWordRunsNext := by
  intro s w
  have presents := placedEdge_eight w s.cfgPin
  have hinputs : (s.withFetchWord 8 w).inputs = placedEdge 8 w s.cfgPin :: s.inputs := rfl
  rw [presents] at hinputs
  exact stepRunsTheDecodedByte _ _ s.inputs hinputs rfl rfl

/-! Inverted pins (R62, R63) -/

theorem getLsbD_not_fin {w : Nat} (v : BitVec w) (i : Fin w) : (~~~v).getLsbD i.val = !v.getLsbD i.val := by
  rw [BitVec.getLsbD_not, decide_eq_true i.isLt, Bool.true_and]

/-- Settles O10: the selector is the complement of the pins, or the pins themselves. -/
theorem selectorIsThePinsInvertedIfConfigured : Obligations.SelectorIsThePinsInvertedIfConfigured :=
  ⟨getLsbD_not_fin, fun _ _ => rfl, rfl, rfl⟩

/-- Settles O11: the pins are the complement of the enables. -/
theorem enablePinsAreActiveLow : Obligations.EnablePinsAreActiveLow := fun s i => getLsbD_not_fin s.oe i

/-! The 5-bit patterns of routes (R11, R13, R109) -/

theorem flagB_eq_true_iff (r : Route) : flagB r = true ↔ r = .bcast := by
  cases r <;> simp [flagB]

theorem routeBitsCanonical_routeBits (r : Route) : routeBitsCanonical (routeBits r) = true := by
  cases r with
  | bcast => rfl
  | ch c => rw [routeBitsCanonical, routeBits_getLsbD_four]; rfl

theorem routeOfBits_routeBits (r : Route) : routeOfBits (routeBits r) = r := by
  rw [routeOfBits, routeBits_getLsbD_four, routeBits_extract_channel]
  cases r with
  | bcast | ch c => rfl

/-- A pattern with `B = 0` is its channel alone. -/
theorem routeBits_ch_extract {v : BitVec 5} (hB : v.getLsbD 4 = false) : routeBits (.ch (v.extractLsb' 0 4)) = v := by
  have flag_above_channel : BitVec.ofBool v.msb ++ v.setWidth 4 = v := BitVec.cons_msb_setWidth v
  rw [BitVec.msb_eq_getLsbD_last, hB] at flag_above_channel
  rw [routeBits, ← BitVec.setWidth_eq_extractLsb' (by decide)]
  exact flag_above_channel

/-- Of the patterns with `B = 1` only 0x10 is canonical (R13). -/
theorem routeBitsCanonical_of_flag {v : BitVec 5} (hB : v.getLsbD 4 = true) :
    routeBitsCanonical v = (v == 0b10000#5) := by
  rw [routeBitsCanonical, hB, Bool.not_true, Bool.false_or]

theorem routeBits_routeOfBits {v : BitVec 5} (h : routeBitsCanonical v = true) : routeBits (routeOfBits v) = v := by
  cases hB : v.getLsbD 4 with
  | false =>
    rw [routeOfBits, if_neg (Bool.eq_false_iff.mp hB)]
    exact routeBits_ch_extract hB
  | true =>
    rw [routeBitsCanonical_of_flag hB, beq_iff_eq] at h
    rw [h]
    rfl

theorem getLsbD_four_of_ge {v : BitVec 5} (h : 0x11#5 ≤ v) : v.getLsbD 4 = true := by
  rw [← BitVec.msb_eq_getLsbD_last, BitVec.msb_eq_decide, decide_eq_true_iff]
  exact Nat.le_of_lt h

/-- Settles O12: the patterns above 0x10 have `B = 1`, so they are read as BROADCAST and are not canonical. -/
theorem routePatternsAreCanonical : Obligations.RoutePatternsAreCanonical := by
  refine ⟨fun r => ⟨routeBitsCanonical_routeBits r, routeOfBits_routeBits r⟩, fun _ => routeBits_routeOfBits,
    fun v hv => ?above, fun s => flagB_eq_true_iff s.rs⟩
  case above =>
    have hB := getLsbD_four_of_ge hv
    have hne : v ≠ 0b10000#5 := fun h => absurd (h ▸ hv) (by decide)
    constructor
    · rw [routeBitsCanonical_of_flag hB, beq_eq_false_iff_ne.mpr hne]
    · rw [routeOfBits, if_pos hB]

/-! Edges without a byte (R116, R121) -/

theorem step_of_idle {s : State} (hrst : s.nextEdge.rst = false) (hsilent : s.nextEdge.rxValid = false) :
    step s = .next (idleStep s.sample) := by
  simp [step, clockEdge, hrst, hsilent]

/-- Settles O24: the edge is sampled, and the step is the IDLE step of the state sampled. -/
theorem edgeWithoutByteIsIdle : Obligations.EdgeWithoutByteIsIdle := by
  intro s e rest hinputs hrst hsilent
  have hnext : s.nextEdge = e := nextEdge_cons hinputs
  rw [step_of_idle (by rwa [hnext]) (by rwa [hnext]), sample_cons hinputs, idleStep_eq]
  rfl

/-- With no edge to come, sampling changes nothing (entry 2). -/
theorem sample_nil {s : State} (h : s.inputs = []) : s.sample = s := by
  rw [State.sample, nextEdge_nil h, h, List.tail_nil, ← h]

/-- Settles O25: resting pins say neither reset nor byte, and leave the switches. -/
theorem restingPinsGiveIdleSteps : Obligations.RestingPinsGiveIdleSteps := by
  intro s hinputs
  have hnext := nextEdge_nil hinputs
  rw [step_of_idle (by rw [hnext]) (by rw [hnext]), sample_nil hinputs, idleStep_eq]

/-! Reset (R124, R150) -/

/-- Settles O26: reset wins at the edge, whatever byte it presents. -/
theorem resetEdgeRestoresTheResetState : Obligations.ResetEdgeRestoresTheResetState := by
  intro s e rest hinputs hreset
  have resets := step_of_rst (s := s) (by rwa [nextEdge_cons hinputs])
  rw [sample_cons hinputs] at resets
  exact ⟨_, resets, rfl, rfl, rfl, rfl, rfl, rfl, rfl, rfl, rfl, rfl, rfl⟩

/-- Settles O27: the fields of `State.resetWith`, at any parameters and at the defaults. -/
theorem resetLeavesTheStatedValues : Obligations.ResetLeavesTheStatedValues :=
  ⟨fun _ => ⟨rfl, rfl, rfl, rfl, rfl, rfl, rfl⟩, rfl, rfl, rfl, rfl, rfl, rfl⟩

/-! The parameters (R4) -/

/-- Settles O30: a reset, a BYTE step and an IDLE step write neither field, but for the reset's counter. -/
theorem stepsKeepTheParameters : Obligations.StepsKeepTheParameters := by
  intro s t hstep
  rcases step_cases hstep with ⟨hreset, rfl⟩ | ⟨-, -, hexec⟩ | ⟨-, -, rfl⟩
  · exact ⟨rfl, fun hrst => absurd (hrst.symm.trans hreset) Bool.false_ne_true⟩
  · obtain ⟨r, rs', rfl, -⟩ := exec_cases hexec
    have effect := byteStep_effect r rs' (encode (decodeByte s.nextEdge.rxByte)) s.sample
    exact ⟨effect.cfg, fun _ => effect.freeIdx⟩
  · exact ⟨rfl, fun _ => rfl⟩

end Sys2Proof.Machine
